-- ==== Sys2Proof/Word.lean ====
section
/-! DEFINITION. The word types of the block: the 32-bit command, register and data word (spec R5, R6, R70)
and the 8-bit byte offset of the host bus (R5, R51). -/

namespace Sys2Proof

/-- A 32-bit word: a command word, a register's contents, or the encoding of a binary32 value (R5, R6, R8). -/
abbrev Word := BitVec 32

/-- Eight bits: an opcode, a fault code, a bus byte offset or one byte lane of a word (R5, R52). -/
abbrev Byte := BitVec 8

end Sys2Proof
end

