-- ==== Sys2Proof/Syntax.lean ====
section
/-! DEFINITION. The commands of the block: one constructor of `Instr` for each row of spec/opcode_table.json (R73).
A one-bit field that only names one of two things is an inductive type; a field whose encodings are all legal is an
index of exactly its width; the fields SET, K and STG keep their whole encoded range, since some of their values are
illegal (R71, R76) and `WellFormed` is where that is said. -/

namespace Sys2Proof

/-- The field CHN and the index c of a cut chain: LC = 0, HC = 1 (R72). -/
inductive Chain where
  | lc
  | hc
deriving DecidableEq, Repr

/-- The field CH: channel 0 is left, channel 1 is right (R71). -/
inductive Channel where
  | left
  | right
deriving DecidableEq, Repr

/-- The field SK: which of a stage's two delay-state words, s1 = 0 or s2 = 1 (R71). -/
inductive StateWord where
  | s1
  | s2
deriving DecidableEq, Repr

/-- The 20 commands (R73). -/
inductive Instr where
  /-- NOP (R100) -/
  | nop
  /-- PREPARE (R101) -/
  | prepare
  /-- START (R102) -/
  | start
  /-- OSC.SETFREQ o (R123) -/
  | oscSetfreq (o : Fin 128)
  /-- OSC.SAMPLE o (R124) -/
  | oscSample (o : Fin 128)
  /-- OSC.STOP o (R125) -/
  | oscStop (o : Fin 128)
  /-- OSC.STATUS o (R126) -/
  | oscStatus (o : Fin 128)
  /-- OSC.READ o (R127) -/
  | oscRead (o : Fin 128)
  /-- WT.WRITE i (R110) -/
  | wtWrite (i : Fin 4096)
  /-- WT.READ i (R111) -/
  | wtRead (i : Fin 4096)
  /-- CF.WRITE s, k (R143) -/
  | cfWrite (s : Fin 16) (k : Fin 8)
  /-- CF.READ s, k (R144) -/
  | cfRead (s : Fin 16) (k : Fin 8)
  /-- CF.SLOPE c, n (R145) -/
  | cfSlope (c : Chain) (n : BitVec 2)
  /-- CF.COMMIT (R146) -/
  | cfCommit
  /-- CF.STAT (R148) -/
  | cfStat
  /-- BQ.PROC ch (R164) -/
  | bqProc (ch : Channel)
  /-- BQ.PROC2 (R165) -/
  | bqProc2
  /-- BQ.RESET (R166) -/
  | bqReset
  /-- BQ.RDSTATE ch, s, j (R167) -/
  | bqRdstate (ch : Channel) (s : Fin 16) (j : StateWord)
  /-- BQ.RDCOEF s, k (R168) -/
  | bqRdcoef (s : Fin 16) (k : Fin 8)
deriving DecidableEq, Repr

end Sys2Proof
end

