-- ==== Sys2Proof/WellFormed.lean ====
section
/-! DEFINITION. Which commands are legal: the field-range conditions of R71, R73 and R76. A term that fails them is
written by no legal word. -/

namespace Sys2Proof

/-- SET and STG name a stage 0 .. 8 (R71, R76). -/
def legalStage (s : Fin 16) : Bool := decide (s.val ≤ 8)

/-- K names a coefficient 0 .. 4 (R71, R76). -/
def legalCoef (k : Fin 8) : Bool := decide (k.val ≤ 4)

/-- The legality of a command's fields: SET <= 8 and K <= 4 in format C, STG <= 8 in format Q; every value of every
other field is legal (R71, R73). -/
def Instr.wellFormed : Instr → Bool
  | .nop => true
  | .prepare => true
  | .start => true
  | .oscSetfreq _ => true
  | .oscSample _ => true
  | .oscStop _ => true
  | .oscStatus _ => true
  | .oscRead _ => true
  | .wtWrite _ => true
  | .wtRead _ => true
  | .cfWrite s k => legalStage s && legalCoef k
  | .cfRead s k => legalStage s && legalCoef k
  | .cfSlope _ _ => true
  | .cfCommit => true
  | .cfStat => true
  | .bqProc _ => true
  | .bqProc2 => true
  | .bqReset => true
  | .bqRdstate _ s _ => legalStage s
  | .bqRdcoef s k => legalStage s && legalCoef k

end Sys2Proof
end

