-- ==== Sys2Proof/Decode.lean ====
section
/-! DEFINITION. The encoding of commands (spec 30_encoding.md): the opcode map as a table of rows (R73), the total
decoder over it (R74), which rejects by name (R76), the encoder, and the bytes of a command on the bus (R52). -/

namespace Sys2Proof

/-! ### Fields (R71, R72): every field is an unsigned integer -/

/-- OSC, bits 6:0 (R71). -/
def fieldOsc (w : Word) : Fin 128 := (w.extractLsb' 0 7).toFin
/-- IDX, bits 11:0 (R71). -/
def fieldIdx (w : Word) : Fin 4096 := (w.extractLsb' 0 12).toFin
/-- SET, bits 6:3 (R71). -/
def fieldSet (w : Word) : Fin 16 := (w.extractLsb' 3 4).toFin
/-- K, bits 2:0 (R71). -/
def fieldK (w : Word) : Fin 8 := (w.extractLsb' 0 3).toFin
/-- CHN, bit 2: 0 = LC, 1 = HC (R71, R72). -/
def fieldChn (w : Word) : Chain := if w.getLsbD 2 then .hc else .lc
/-- SLP, bits 1:0 (R71). -/
def fieldSlp (w : Word) : BitVec 2 := w.extractLsb' 0 2
/-- CH of format F, bit 0 (R71). -/
def fieldChF (w : Word) : Channel := if w.getLsbD 0 then .right else .left
/-- CH of format Q, bit 5 (R71). -/
def fieldChQ (w : Word) : Channel := if w.getLsbD 5 then .right else .left
/-- STG, bits 4:1 (R71). -/
def fieldStg (w : Word) : Fin 16 := (w.extractLsb' 1 4).toFin
/-- SK, bit 0 (R71). -/
def fieldSk (w : Word) : StateWord := if w.getLsbD 0 then .s2 else .s1

/-! ### The opcode map (R73) -/

/-- The seven formats (R71). -/
inductive Format where
  | n | o | t | c | s | f | q
deriving DecidableEq, Repr

/-- One row of the opcode map: `word & mask == pattern` selects the command, and `build` reads its fields (R73). -/
structure Row where
  name    : String
  format  : Format
  pattern : Word
  mask    : Word
  build   : Word → Instr

/-- The setup and oscillator rows of R73. -/
def rowsOsc : List Row :=
  [ ⟨"NOP",         .n, 0x00000000, 0xFFFFFFFF, fun _ => .nop⟩,
    ⟨"PREPARE",     .n, 0x01000000, 0xFFFFFFFF, fun _ => .prepare⟩,
    ⟨"START",       .n, 0x02000000, 0xFFFFFFFF, fun _ => .start⟩,
    ⟨"OSC.SETFREQ", .o, 0x10000000, 0xFFFFFF80, fun w => .oscSetfreq (fieldOsc w)⟩,
    ⟨"OSC.SAMPLE",  .o, 0x11000000, 0xFFFFFF80, fun w => .oscSample (fieldOsc w)⟩,
    ⟨"OSC.STOP",    .o, 0x12000000, 0xFFFFFF80, fun w => .oscStop (fieldOsc w)⟩,
    ⟨"OSC.STATUS",  .o, 0x13000000, 0xFFFFFF80, fun w => .oscStatus (fieldOsc w)⟩,
    ⟨"OSC.READ",    .o, 0x14000000, 0xFFFFFF80, fun w => .oscRead (fieldOsc w)⟩,
    ⟨"WT.WRITE",    .t, 0x20000000, 0xFFFFF000, fun w => .wtWrite (fieldIdx w)⟩,
    ⟨"WT.READ",     .t, 0x21000000, 0xFFFFF000, fun w => .wtRead (fieldIdx w)⟩ ]

/-- The coefficient-loader and filter rows of R73. -/
def rowsFilter : List Row :=
  [ ⟨"CF.WRITE",   .c, 0x30000000, 0xFFFFFF80, fun w => .cfWrite (fieldSet w) (fieldK w)⟩,
    ⟨"CF.READ",    .c, 0x31000000, 0xFFFFFF80, fun w => .cfRead (fieldSet w) (fieldK w)⟩,
    ⟨"CF.SLOPE",   .s, 0x32000000, 0xFFFFFFF8, fun w => .cfSlope (fieldChn w) (fieldSlp w)⟩,
    ⟨"CF.COMMIT",  .n, 0x33000000, 0xFFFFFFFF, fun _ => .cfCommit⟩,
    ⟨"CF.STAT",    .n, 0x34000000, 0xFFFFFFFF, fun _ => .cfStat⟩,
    ⟨"BQ.PROC",    .f, 0x40000000, 0xFFFFFFFE, fun w => .bqProc (fieldChF w)⟩,
    ⟨"BQ.PROC2",   .n, 0x41000000, 0xFFFFFFFF, fun _ => .bqProc2⟩,
    ⟨"BQ.RESET",   .n, 0x42000000, 0xFFFFFFFF, fun _ => .bqReset⟩,
    ⟨"BQ.RDSTATE", .q, 0x43000000, 0xFFFFFFC0, fun w => .bqRdstate (fieldChQ w) (fieldStg w) (fieldSk w)⟩,
    ⟨"BQ.RDCOEF",  .c, 0x44000000, 0xFFFFFF80, fun w => .bqRdcoef (fieldSet w) (fieldK w)⟩ ]

/-- The opcode map of R73, in the table's order. -/
def rows : List Row := rowsOsc ++ rowsFilter

/-- `w & r.mask == r.pattern` (R73, R74). -/
def Row.selects (r : Row) (w : Word) : Bool := w &&& r.mask == r.pattern

/-! ### Decode (R74) -/

/-- Why a word is ILLEGAL (R76). All four are reported as E_ILLEGAL. -/
inductive DecodeError where
  /-- the opcode byte is none of the 20 of R73 (R76 case 1) -/
  | undefinedOpcode
  /-- a reserved bit of the command's format is 1 (R76 case 2) -/
  | reservedBit
  /-- SET > 8, K > 4 or STG > 8 (R76 cases 3 and 4) -/
  | fieldRange
  /-- fewer than four byte lanes: no whole word (R53, R70); only `decodeBytes` says it -/
  | truncated
deriving DecidableEq, Repr

/-- Decoding a command word, a total function from every word (R74). -/
def decode (w : Word) : Except DecodeError Instr :=
  match rows.find? (fun r => r.selects w) with
  | some r => if (r.build w).wellFormed then .ok (r.build w) else .error .fieldRange
  | none =>
    if rows.any (fun r => r.pattern.extractLsb' 24 8 == w.extractLsb' 24 8) then .error .reservedBit
    else .error .undefinedOpcode

/-- The word of four byte lanes, lane 0 being bits 7:0 (R52). -/
def wordOfLanes (b0 b1 b2 b3 : Byte) : Word := b3 ++ b2 ++ b1 ++ b0

/-- The four byte lanes of a word, lane 0 first (R52). -/
def lanesOfWord (w : Word) : List Byte :=
  [w.extractLsb' 0 8, w.extractLsb' 8 8, w.extractLsb' 16 8, w.extractLsb' 24 8]

/-- Decoding from byte lanes, lane 0 first: one word is one command (R52, R70). The rest of the lanes comes back. -/
def decodeBytes : List Byte → Except DecodeError (Instr × List Byte)
  | b0 :: b1 :: b2 :: b3 :: rest =>
    match decode (wordOfLanes b0 b1 b2 b3) with
    | .ok i => .ok (i, rest)
    | .error e => .error e
  | _ => .error .truncated

/-! ### Encode (R71, R73) -/

/-- CHN as its bit (R72). -/
def Chain.bit : Chain → BitVec 1
  | .lc => 0#1
  | .hc => 1#1
/-- CH as its bit (R71). -/
def Channel.bit : Channel → BitVec 1
  | .left => 0#1
  | .right => 1#1
/-- SK as its bit (R71). -/
def StateWord.bit : StateWord → BitVec 1
  | .s1 => 0#1
  | .s2 => 1#1

/-- Format N (R71). -/
def encodeN (opc : Byte) : Word := opc ++ 0#24
/-- Format O (R71). -/
def encodeO (opc : Byte) (o : Fin 128) : Word := opc ++ 0#17 ++ BitVec.ofFin (w := 7) o
/-- Format T (R71). -/
def encodeT (opc : Byte) (i : Fin 4096) : Word := opc ++ 0#12 ++ BitVec.ofFin (w := 12) i
/-- Format C (R71). -/
def encodeC (opc : Byte) (s : Fin 16) (k : Fin 8) : Word :=
  opc ++ 0#17 ++ BitVec.ofFin (w := 4) s ++ BitVec.ofFin (w := 3) k
/-- Format S (R71). -/
def encodeS (opc : Byte) (c : Chain) (n : BitVec 2) : Word := opc ++ 0#21 ++ c.bit ++ n
/-- Format F (R71). -/
def encodeF (opc : Byte) (ch : Channel) : Word := opc ++ 0#23 ++ ch.bit
/-- Format Q (R71). -/
def encodeQ (opc : Byte) (ch : Channel) (s : Fin 16) (j : StateWord) : Word :=
  opc ++ 0#18 ++ ch.bit ++ BitVec.ofFin (w := 4) s ++ j.bit

/-- The word of a command (R71, R73). It is also what ERRCMD records of a command that faults (R26). -/
def encode : Instr → Word
  | .nop => encodeN 0x00
  | .prepare => encodeN 0x01
  | .start => encodeN 0x02
  | .oscSetfreq o => encodeO 0x10 o
  | .oscSample o => encodeO 0x11 o
  | .oscStop o => encodeO 0x12 o
  | .oscStatus o => encodeO 0x13 o
  | .oscRead o => encodeO 0x14 o
  | .wtWrite i => encodeT 0x20 i
  | .wtRead i => encodeT 0x21 i
  | .cfWrite s k => encodeC 0x30 s k
  | .cfRead s k => encodeC 0x31 s k
  | .cfSlope c n => encodeS 0x32 c n
  | .cfCommit => encodeN 0x33
  | .cfStat => encodeN 0x34
  | .bqProc ch => encodeF 0x40 ch
  | .bqProc2 => encodeN 0x41
  | .bqReset => encodeN 0x42
  | .bqRdstate ch s j => encodeQ 0x43 ch s j
  | .bqRdcoef s k => encodeC 0x44 s k

/-- The instruction the decoder reads from the command word of value `w`, given as its byte lanes (R52); every bit above
`nbits` is 0. -/
def decodeTableWord (nbits w : Nat) : Option Instr :=
  match decodeBytes (lanesOfWord (BitVec.ofNat 32 (w % 2 ^ nbits))) with
  | .ok (i, _) => some i
  | .error _ => none

end Sys2Proof
end

