-- ==== Sys2Proof/Config.lean ====
section
/-! DEFINITION. What an implementation of the block fixes (spec R5) and the two free values: results that no rule
of the spec states, so that nothing can be proved of them beyond their being words. -/

namespace Sys2Proof

/-- The parameter P_TBLLEN, the wavetable length L: an integer from 1 to 4096 (R5, decision D11). -/
structure TblLen where
  /-- the number L itself -/
  val : Nat
  pos : 0 < val
  le  : val ≤ 4096
deriving DecidableEq, Repr

/-- The default of P_TBLLEN, 64 (R5). -/
def Config.defaultTblLen : TblLen := ⟨64, by decide, by decide⟩

/-- NOSC, the number of oscillators (R5). -/
abbrev Config.numOsc : Nat := 128

/-- The number of biquad stages of one channel: 4 low-cut, 1 peak, 4 high-cut (R5). -/
abbrev Config.numStages : Nat := 9

/-- NCUT, the stages of one cut chain (R5). -/
abbrev Config.numCut : Nat := 4

/-- The identification word, ASCII WTBQ (R1, R22). -/
def Config.idWord : Word := 0x57544251

/-- FREE VALUE (log entry 4). R121 gives the interpolation for a phase in `[0, L)` between two written table entries.
For any other phase or an unwritten entry it states nothing: this is that unstated sample, for table length, table and
phase. No reachable state asks for it. -/
opaque Config.interpOutside : TblLen → List (Nat × Word) → Word → Word

/-- FREE VALUE (log entry 4). R12 gives `wrapL(x)` for a finite `x >= 0`. For a NaN, an infinity or a negative number
it states nothing: this is that unstated word. No reachable state asks for it. -/
opaque Config.wrapOutside : TblLen → Word → Word

end Sys2Proof
end

