-- ==== Sys2Proof/Machine/Float.lean ====
section
/-! DEFINITION. Binary32 arithmetic (spec 00_scope.md R8 to R12). A finite number is held exactly, as its sign and its
magnitude counted in units of 2^-149 (the subnormal grid), so that every rounded operation is one exact computation on
natural numbers followed by one rounding. -/

namespace Sys2Proof.Machine

/-- The value a word encodes (R8). `fin neg mag` is plus or minus `mag * 2^-149`. -/
inductive F32 where
  | nan
  | inf (neg : Bool)
  | fin (neg : Bool) (mag : Nat)
deriving DecidableEq, Repr

/-- The sign, bit 31 (R8). -/
def signBit (w : Word) : Bool := decide (2 ^ 31 ≤ w.toNat)
/-- The biased exponent, bits 30:23 (R8). -/
def expField (w : Word) : Nat := w.toNat / 2 ^ 23 % 256
/-- The fraction, bits 22:0 (R8). -/
def fracField (w : Word) : Nat := w.toNat % 2 ^ 23

/-- `f32(w)`: the value a word encodes (R7, R8). Subnormals are taken at their value (R11). -/
def f32 (w : Word) : F32 :=
  if expField w = 255 then
    if fracField w = 0 then .inf (signBit w) else .nan
  else if expField w = 0 then .fin (signBit w) (fracField w)
  else .fin (signBit w) ((2 ^ 23 + fracField w) * 2 ^ (expField w - 1))

/-- The word with a sign and the low 31 bits `m` (R8). -/
def packSign (neg : Bool) (m : Nat) : Word := BitVec.ofNat 32 (if neg then 2 ^ 31 + m else m)

/-- The canonical NaN (R10). -/
def qnan : Word := 0x7FC00000

/-- The low 31 bits of an infinity (R8). -/
def infBits : Nat := 0x7F800000

/-- The integer nearest to `n / d`, ties to even (R9). -/
def roundDiv (n d : Nat) : Nat :=
  let q := n / d
  let r := n % d
  if 2 * r < d ∨ (2 * r = d ∧ q % 2 = 0) then q else q + 1

/-- The binary exponent of the grid on which `n / d` units are rounded, above the subnormal grid: 24 bits of precision
where the value is 2^24 units or more, the unit itself below (R9, R11). -/
def gridExp (n d : Nat) : Nat := (n / d).log2 - 23

/-- The low 31 bits of the binary32 number nearest to the magnitude `(n / d) * 2^-149`, ties to even; from
(2 - 2^-24) * 2^127 on it is infinity (R9). -/
def roundMag (n d : Nat) : Nat :=
  let k := gridExp n d
  min (k * 2 ^ 23 + roundDiv n (d * 2 ^ k)) infBits

/-- Rounding a signed magnitude `(n / d) * 2^-149` to a word (R9). -/
def roundWord (neg : Bool) (n d : Nat) : Word := packSign neg (roundMag n d)

/-- The opposite number; a NaN stays a NaN. -/
def F32.neg : F32 → F32
  | .nan => .nan
  | .inf s => .inf (!s)
  | .fin s m => .fin (!s) m

/-- The rounded sum of two finite numbers. An exact zero sum of operands of opposite sign is +0 (R9). -/
def addFin (s : Bool) (m : Nat) (t : Bool) (n : Nat) : Word :=
  if s = t then roundWord s (m + n) 1
  else if n < m then roundWord s (m - n) 1
  else if m < n then roundWord t (n - m) 1
  else 0

/-- The rounded sum of two values (R9, R10). -/
def addF : F32 → F32 → Word
  | .nan, _ => qnan
  | .inf _, .nan => qnan
  | .fin _ _, .nan => qnan
  | .inf s, .inf t => if s = t then packSign s infBits else qnan
  | .inf s, .fin _ _ => packSign s infBits
  | .fin _ _, .inf t => packSign t infBits
  | .fin s m, .fin t n => addFin s m t n

/-- `fadd(a, b)` (R9). -/
def fadd (a b : Word) : Word := addF (f32 a) (f32 b)

/-- `fsub(a, b)` (R9). -/
def fsub (a b : Word) : Word := addF (f32 a) (f32 b).neg

/-- `fmul(a, b)` (R9). The product of two magnitudes in units of 2^-149 is in units of 2^-298. -/
def fmul (a b : Word) : Word :=
  match f32 a, f32 b with
  | .nan, _ => qnan
  | .inf _, .nan => qnan
  | .fin _ _, .nan => qnan
  | .inf s, .inf t => packSign (s != t) infBits
  | .inf s, .fin t n => if n = 0 then qnan else packSign (s != t) infBits
  | .fin s m, .inf t => if m = 0 then qnan else packSign (s != t) infBits
  | .fin s m, .fin t n => roundWord (s != t) (m * n) (2 ^ 149)

/-- `fdiv(a, b)` (R9). -/
def fdiv (a b : Word) : Word :=
  match f32 a, f32 b with
  | .nan, _ => qnan
  | .inf _, .nan => qnan
  | .fin _ _, .nan => qnan
  | .inf _, .inf _ => qnan
  | .inf s, .fin t _ => packSign (s != t) infBits
  | .fin s _, .inf t => packSign (s != t) 0
  | .fin s m, .fin t n =>
    if n = 0 then (if m = 0 then qnan else packSign (s != t) infBits)
    else roundWord (s != t) (m * 2 ^ 149) n

/-! ### Helpers and comparisons (R12) -/

/-- `isFinite(x)`: the exponent field is not 0xFF (R12). -/
def isFinite (w : Word) : Bool := decide (expField w ≠ 255)

/-- The magnitude of a finite number in units of 2^-149; 0 for the others, which no rule asks it of. -/
def magOf (w : Word) : Nat :=
  match f32 w with
  | .fin _ m => m
  | _ => 0

/-- `x > 0`, an ordered comparison: false for a NaN and for both zeros (R12). -/
def gtZero (w : Word) : Bool :=
  match f32 w with
  | .nan => false
  | .inf s => !s
  | .fin s m => !s && decide (m ≠ 0)

/-- `x >= 0`, an ordered comparison: false for a NaN, true for -0 (R12). -/
def geZero (w : Word) : Bool :=
  match f32 w with
  | .nan => false
  | .inf s => !s
  | .fin s m => !s || decide (m = 0)

/-- `x != 0`: true for every nonzero number and for a NaN, false for both zeros (R12). -/
def neZero (w : Word) : Bool :=
  match f32 w with
  | .nan => true
  | .inf _ => true
  | .fin _ m => decide (m ≠ 0)

/-- `floorN(x)` for a finite `x >= 0` (R12). -/
def floorN (w : Word) : Nat := magOf w / 2 ^ 149

/-- `float(n)`: the binary32 value of a natural number, exact for `n <= 2^24` (R12). -/
def floatOfNat (n : Nat) : Word := roundWord false (n * 2 ^ 149) 1

/-- `0 <= x < L`, for `x` finite (R121). -/
def inTable (len : TblLen) (w : Word) : Bool :=
  isFinite w && geZero w && decide (magOf w < len.val * 2 ^ 149)

/-- `wrapL(x)`: the exact remainder modulo L of a finite `x >= 0`; a zero result is +0 (R12). Elsewhere the rule states
nothing. -/
def wrapL (len : TblLen) (w : Word) : Word :=
  if isFinite w && geZero w then roundWord false (magOf w % (len.val * 2 ^ 149)) 1
  else Config.wrapOutside len w

end Sys2Proof.Machine
end

