-- ==== Sys2Proof/Machine/State.lean ====
section
/-! DEFINITION. The state of the block as plain data (spec 10_state.md, R45), its reset (R220), and the reasons a step
can stop. Two fields are the model's own and no state of the block: `pending`, the host's inputs not served yet, and
`replies`, the words its Reads have returned (R42, R225). -/

namespace Sys2Proof.Machine

/-- The operating mode (R20). -/
inductive Mode where
  | unprep
  | setup
  | run
deriving DecidableEq, Repr

/-- One thing for each of the two cut chains, LC and HC (R35, R37). -/
structure PerChain (α : Type) where
  lc : α
  hc : α
deriving DecidableEq, Repr

/-- One thing for each of the two channels, left and right (R38). -/
structure PerChannel (α : Type) where
  left  : α
  right : α
deriving DecidableEq, Repr

/-- A coefficient set of one stage (R140): k = 0 is b0, 1 b1, 2 b2, 3 a1, 4 a2. -/
structure CoefSet where
  b0 : Word
  b1 : Word
  b2 : Word
  a1 : Word
  a2 : Word
deriving DecidableEq, Repr

/-- The two delay-state words of one stage of one channel (R38). -/
structure Delay where
  s1 : Word
  s2 : Word
deriving DecidableEq, Repr

/-- The identity set {1.0, 0, 0, 0, 0} (R34, R36). -/
def CoefSet.identity : CoefSet := ⟨0x3F800000, 0, 0, 0, 0⟩

/-- Cleared delay state, +0.0 in both words (R38). -/
def Delay.zero : Delay := ⟨0, 0⟩

/-- The wavetable memory, TBL and TBLV together (R32, R33): the written entries as (index, word) pairs, indices strictly
rising. An index that is not listed has TBLV = 0 and holds no value that any rule reads. -/
abbrev Memory := List (Nat × Word)

/-- The canonical form: strictly rising indices, so that equal tables are equal lists. -/
abbrev Memory.wf (m : Memory) : Prop := m.Pairwise (fun a b => a.1 < b.1)

/-- What the host can do at the block's pins (R51, R216, R220): the two bus transactions, and asserting reset, which is
an event of its own between transactions. -/
inductive HostEvent where
  /-- assert the reset input (R220) -/
  | reset
  /-- `Read(off)` (R51) -/
  | read (off : Byte)
  /-- `Write(off, w, be)` (R51) -/
  | write (off : Byte) (w : Word) (be : BitVec 4)
deriving DecidableEq, Repr

/-- The machine state (R45). STATUS, CFG and ID hold no storage (R22, R23, R24). -/
structure State where
  /-- MODE (R20) -/
  mode : Mode
  /-- STATUS.FAULT, the sticky bit (R24, R203) -/
  fault : Bool
  /-- ERR[7:0], the code of the first fault; bits 31:8 read 0 (R25) -/
  err : Byte
  /-- ERRCMD, the record of the first fault (R26) -/
  errcmd : Word
  /-- ARG0 (R28) -/
  arg0 : Word
  /-- ARG1 (R28) -/
  arg1 : Word
  /-- RES0 (R29) -/
  res0 : Word
  /-- RES1 (R29) -/
  res1 : Word
  /-- SR, the sample-rate word of the last successful PREPARE (R40) -/
  sr : Word
  /-- MAXBLK, its block-size word (R40) -/
  maxblk : Word
  /-- PHASE[o] (R30) -/
  phase : Vector Word 128
  /-- INC[o] (R31) -/
  inc : Vector Word 128
  /-- TBL[i] and TBLV[i] (R32, R33) -/
  tbl : Memory
  /-- SH[s], the shadow coefficient sets (R34) -/
  sh : Vector CoefSet 9
  /-- SHSLOPE[c], the shadow slope codes (R35) -/
  shslope : PerChain (BitVec 2)
  /-- COEF[s], the active coefficient sets (R36) -/
  coef : Vector CoefSet 9
  /-- BYP[c][i], the bypass flags: true is Bypassed (R37) -/
  byp : PerChain (Vector Bool 4)
  /-- S[ch][s], the delay state (R38) -/
  dly : PerChannel (Vector Delay 9)
  /-- the parameter L, which no event changes and CFG shows (R5, R23) -/
  tblLen : TblLen
  /-- MODEL: the host's events not served yet, the next one first (R42, R57) -/
  pending : List HostEvent
  /-- MODEL: the words the host's Reads have returned, the oldest first (R225) -/
  replies : List Word
deriving DecidableEq, Repr

/-- The reasons for which a step stops with a fault: none. Every fault of the block is recorded and the block goes on
(R203, R206), so no step of the model faults. -/
inductive Fault where
deriving DecidableEq, Repr

/-- The reasons for which a step refuses. -/
inductive Refusal where
  /-- raised by an arm of `exec` for an instruction that has no meaning yet; none is left, so nothing raises it. Safe. -/
  | notModelled (mnemonic : String)
deriving DecidableEq, Repr

/-- The state right after reset of a block whose table length is `len` (R220). TBL is unspecified there and TBLV is 0,
so no entry is listed. -/
def State.resetOf (len : TblLen) : State where
  mode := .unprep
  fault := false
  err := 0
  errcmd := 0
  arg0 := 0
  arg1 := 0
  res0 := 0
  res1 := 0
  sr := 0
  maxblk := 0
  phase := Vector.replicate 128 0
  inc := Vector.replicate 128 0
  tbl := []
  sh := Vector.replicate 9 CoefSet.identity
  shslope := ⟨0, 0⟩
  coef := Vector.replicate 9 CoefSet.identity
  byp := ⟨Vector.replicate 4 true, Vector.replicate 4 true⟩
  dly := ⟨Vector.replicate 9 Delay.zero, Vector.replicate 9 Delay.zero⟩
  tblLen := len
  pending := []
  replies := []

/-- The machine right after reset (R220), at the default table length 64 (R5), with no host event waiting. -/
def State.reset : State := State.resetOf Config.defaultTblLen

end Sys2Proof.Machine
end

