-- ==== Sys2Proof/Machine/Ops.lean ====
section
/-! DEFINITION. The named operations over the state: the wavetable memory (R32, R33), the banks and their indices (R34
to R38), the fault record (R203), and running one command's pseudocode under the checks of R201. -/

namespace Sys2Proof.Machine

/-- The outcome of a step of this machine. -/
abbrev Result := Host.Outcome State Fault Refusal

/-! ### Wavetable memory (R32, R33) -/

/-- The word of entry i where TBLV[i] = 1, nothing where TBLV[i] = 0 (R32, R33). -/
def Memory.read (m : Memory) (i : Nat) : Option Word :=
  match m with
  | [] => none
  | (j, u) :: rest => if i = j then some u else Memory.read rest i

/-- TBL[i] <- v and TBLV[i] <- 1 (R110). -/
def Memory.write (m : Memory) (i : Nat) (v : Word) : Memory :=
  match m with
  | [] => [(i, v)]
  | (j, u) :: rest =>
    if i < j then (i, v) :: (j, u) :: rest
    else if i = j then (i, v) :: rest
    else (j, u) :: Memory.write rest i v

/-- TBLV[i] (R33). -/
def Memory.written (m : Memory) (i : Nat) : Bool := (Memory.read m i).isSome

/-- Every TBLV flag 0 (R33, R101). -/
def Memory.empty : Memory := []

/-- The AND of the flags TBLV[0 .. L-1] (R24, R33). -/
def Memory.full (m : Memory) (len : TblLen) : Bool :=
  (List.range len.val).all (fun i => Memory.written m i)

/-! ### Banks and indices -/

/-- The value for one chain. -/
def PerChain.get {α : Type} (p : PerChain α) : Chain → α
  | .lc => p.lc
  | .hc => p.hc

/-- Writing the value for one chain. -/
def PerChain.set {α : Type} (p : PerChain α) (c : Chain) (v : α) : PerChain α :=
  match c with
  | .lc => { p with lc := v }
  | .hc => { p with hc := v }

/-- The value for one channel. -/
def PerChannel.get {α : Type} (p : PerChannel α) : Channel → α
  | .left => p.left
  | .right => p.right

/-- Writing the value for one channel. -/
def PerChannel.set {α : Type} (p : PerChannel α) (ch : Channel) (v : α) : PerChannel α :=
  match ch with
  | .left => { p with left := v }
  | .right => { p with right := v }

/-- The five coefficients of a set (R140). -/
inductive Coef where
  | b0 | b1 | b2 | a1 | a2
deriving DecidableEq, Repr

/-- Reading one coefficient of a set (R140). -/
def CoefSet.get (c : CoefSet) : Coef → Word
  | .b0 => c.b0
  | .b1 => c.b1
  | .b2 => c.b2
  | .a1 => c.a1
  | .a2 => c.a2

/-- Writing one coefficient of a set (R140). -/
def CoefSet.set (c : CoefSet) (k : Coef) (v : Word) : CoefSet :=
  match k with
  | .b0 => { c with b0 := v }
  | .b1 => { c with b1 := v }
  | .b2 => { c with b2 := v }
  | .a1 => { c with a1 := v }
  | .a2 => { c with a2 := v }

/-- Reading one delay-state word of a stage (R38). -/
def Delay.get (d : Delay) : StateWord → Word
  | .s1 => d.s1
  | .s2 => d.s2

/-- The stage number of the peak stage (R72). -/
def peakStage : Fin 9 := 4

/-- The four slots of a cut chain, in index order (R146). -/
def slots : List (Fin 4) := [0, 1, 2, 3]

/-- The stage number of cut stage i of chain c, `5*c + i` (R72). -/
def cutStage (c : Chain) (i : Fin 4) : Fin 9 :=
  match c with
  | .lc => ⟨i.val, by omega⟩
  | .hc => ⟨5 + i.val, by omega⟩

/-- The nine stages in processing order, which is stage-number order (R72, R162). -/
def stages : List (Fin 9) := [0, 1, 2, 3, 4, 5, 6, 7, 8]

/-! ### Faults: recording one is all there is to taking one (R203, R205, R206) -/

/-- The faults a block can raise (R200). -/
inductive FaultCode where
  | illegal | mode | range | operand | table | unwritten | bus
deriving DecidableEq, Repr

/-- The code ERR records for a fault (R200). -/
def FaultCode.code : FaultCode → Byte
  | .illegal => 1
  | .mode => 2
  | .range => 3
  | .operand => 4
  | .table => 5
  | .unwritten => 6
  | .bus => 7

/-- `recordFault(code, info)`: the first fault since reset is recorded in ERR and ERRCMD, every fault sets STATUS.FAULT,
and control goes nowhere (R203, R205). Nothing returns from a fault: there is no handler (R206). -/
def State.recordFault (s : State) (c : FaultCode) (info : Word) : State :=
  if s.err = 0 then { s with fault := true, err := c.code, errcmd := info }
  else { s with fault := true }

/-! ### Running a command (R201) -/

/-- UNPREP, SETUP, RUN (R201). -/
def anyMode : List Mode := [.unprep, .setup, .run]

/-- One command of word `w` whose Modes line is `modes` and whose pseudocode is `body` (R201): E_MODE outside those
modes; a fault the pseudocode raises leaves the state as it was, but for the record (R202, R203). No command stops the
block (R206): there is a next state always. -/
def runCommand (modes : List Mode) (w : Word) (body : State → Except FaultCode State) (s : State) : Result :=
  if s.mode ∈ modes then
    match body s with
    | .ok t => .next t
    | .error c => .next (s.recordFault c w)
  else .next (s.recordFault .mode w)

/-! ### Writes that several commands share -/

/-- RES0 <- v (R29). -/
def State.setRes0 (s : State) (v : Word) : State := { s with res0 := v }

/-- RES1 <- v (R29). -/
def State.setRes1 (s : State) (v : Word) : State := { s with res1 := v }

/-- PHASE[o] <- v (R30). -/
def State.setPhase (s : State) (o : Fin 128) (v : Word) : State := { s with phase := s.phase.set o v }

/-- INC[o] <- v (R31). -/
def State.setInc (s : State) (o : Fin 128) (v : Word) : State := { s with inc := s.inc.set o v }

/-- TBL[i] <- v, TBLV[i] <- 1 (R110). -/
def State.writeTable (s : State) (i : Nat) (v : Word) : State := { s with tbl := s.tbl.write i v }

/-- SH[st][k] <- v (R143). -/
def State.setShadow (s : State) (st : Fin 9) (k : Coef) (v : Word) : State :=
  { s with sh := s.sh.set st (s.sh[st].set k v) }

/-- SHSLOPE[c] <- n (R145). -/
def State.setSlope (s : State) (c : Chain) (n : BitVec 2) : State := { s with shslope := s.shslope.set c n }

/-- COEF[st] <- SH[st], the whole set (R146). -/
def State.loadStage (s : State) (st : Fin 9) : State := { s with coef := s.coef.set st s.sh[st] }

/-- BYP[c][0..3] <- 1: all four slots Bypassed (R146, phase 1). -/
def State.bypassChain (s : State) (c : Chain) : State := { s with byp := s.byp.set c (Vector.replicate 4 true) }

/-- BYP[c][i] <- 0: slot i Active (R146, phase 2). -/
def State.activate (s : State) (c : Chain) (i : Fin 4) : State :=
  { s with byp := s.byp.set c ((s.byp.get c).set i false) }

/-- S[ch] <- d, the delay lines of one channel (R160). -/
def State.setDelays (s : State) (ch : Channel) (d : Vector Delay 9) : State := { s with dly := s.dly.set ch d }

/-- S[ch][s][j] <- +0.0 for every channel, stage and word (R101, R166). -/
def State.clearDelays (s : State) : State :=
  { s with dly := ⟨Vector.replicate 9 Delay.zero, Vector.replicate 9 Delay.zero⟩ }

/-- PHASE[o] <- +0.0 and INC[o] <- +0.0 for every oscillator (R101). -/
def State.clearOscillators (s : State) : State :=
  { s with phase := Vector.replicate 128 0, inc := Vector.replicate 128 0 }

/-- TBLV[i] <- 0 for every entry (R101). -/
def State.clearTable (s : State) : State := { s with tbl := Memory.empty }

/-- MODE <- m (R20). -/
def State.setMode (s : State) (m : Mode) : State := { s with mode := m }

/-- SR <- ARG0 and MAXBLK <- ARG1 (R101). -/
def State.latchSetup (s : State) : State := { s with sr := s.arg0, maxblk := s.arg1 }

end Sys2Proof.Machine
end

