-- ==== Sys2Proof/Machine/Flags.lean ====
section
/-! DEFINITION. The status words the block computes: STATUS (R24) and the result of CF.STAT (R148). The block has no condition
codes and no arithmetic flags (R43). -/

namespace Sys2Proof.Machine

/-- MODE as STATUS shows it: 0 UNPREP, 1 SETUP, 2 RUN (R20, R24). -/
def Mode.code : Mode → BitVec 2
  | .unprep => 0
  | .setup => 1
  | .run => 2

/-- STATUS.TBL_FULL: every TBLV flag is 1 (R24, R33). -/
def State.tblFull (s : State) : Bool := s.tbl.full s.tblLen

/-- STATUS: TBL_FULL is bit 3, FAULT bit 2, MODE bits 1:0, the rest 0 (R24). -/
def State.statusWord (s : State) : Word :=
  0#28 ++ BitVec.ofBool s.tblFull ++ BitVec.ofBool s.fault ++ s.mode.code

/-- CFG: NOSCM1 = 0x7F in bits 31:24, 0 in bits 23:16, L in bits 15:0 (R23). -/
def State.cfgWord (s : State) : Word := 0x7F#8 ++ 0#8 ++ BitVec.ofNat 16 s.tblLen.val

/-- The four bypass flags of a chain as CF.STAT packs them, flag 3 in the highest bit (R148). -/
def bypBits (b : Vector Bool 4) : BitVec 4 :=
  BitVec.ofBool b[3] ++ BitVec.ofBool b[2] ++ BitVec.ofBool b[1] ++ BitVec.ofBool b[0]

/-- The word CF.STAT returns: SHSLOPE[HC] in bits 13:12, SHSLOPE[LC] in bits 9:8, BYP[HC] in bits 7:4, BYP[LC] in bits
3:0, the rest 0 (R148). -/
def State.cfStatWord (s : State) : Word :=
  0#18 ++ s.shslope.hc ++ 0#2 ++ s.shslope.lc ++ bypBits s.byp.hc ++ bypBits s.byp.lc

/-- Oscillator o is playing: `INC[o] != 0`, the only sign of it (R31, R126). -/
def State.playing (s : State) (o : Fin 128) : Bool := neZero s.inc[o]

end Sys2Proof.Machine
end

