-- ==== Sys2Proof/Machine/Operands.lean ====
section
/-! DEFINITION. How a command reads its operands: fields of the word (R71, R72) and the registers ARG0 and ARG1 (R28), with
the conditions each command puts on them. -/

namespace Sys2Proof.Machine

/-- SET or STG as a stage number 0 .. 8; nothing for the illegal values 9 .. 15 (R71, R72, R76). -/
def stageOf (s : Fin 16) : Option (Fin 9) := if h : s.val < 9 then some ⟨s.val, h⟩ else none

/-- K as a coefficient: 0 b0, 1 b1, 2 b2, 3 a1, 4 a2; nothing for the illegal values 5 .. 7 (R71, R76, R140). -/
def coefOf (k : Fin 8) : Option Coef :=
  match k.val with
  | 0 => some .b0
  | 1 => some .b1
  | 2 => some .b2
  | 3 => some .a1
  | 4 => some .a2
  | _ => none

/-- `int32(w)`: the word as a two's-complement integer (R6). -/
def int32 (w : Word) : Int := w.toInt

/-- A sample rate PREPARE accepts: `isFinite(sr) and sr > 0` (R101). -/
def validRate (w : Word) : Bool := isFinite w && gtZero w

/-- A block size PREPARE accepts: `mb > 0` (R101). -/
def validBlock (w : Word) : Bool := decide (0 < int32 w)

/-- A frequency OSC.SETFREQ accepts: `isFinite(f) and f >= 0` (R123). -/
def validFreq (w : Word) : Bool := isFinite w && geZero w

/-- An increment OSC.SETFREQ accepts: `isFinite(inc) and inc > 0` (R123). -/
def validInc (w : Word) : Bool := isFinite w && gtZero w

/-- The value WT.WRITE stores: -0.0 becomes +0.0 (R110). -/
def tableValue (w : Word) : Word := if neZero w then w else 0

end Sys2Proof.Machine
end

