-- ==== Sys2Proof/Machine/CoefLoader.lean ====
section
/-! DEFINITION. The coefficient loader and the active-stage control: CF.WRITE, CF.READ, CF.SLOPE, CF.COMMIT and CF.STAT (spec
43_coef_loader.md). -/

namespace Sys2Proof.Machine

/-- CF.WRITE (R143). A field that names no stage or no coefficient is E_ILLEGAL (R76), before the operand check. -/
def execCfWrite (st : Fin 16) (k : Fin 8) (s : State) : Result :=
  runCommand anyMode (encode (.cfWrite st k))
    (fun s =>
      match stageOf st, coefOf k with
      | some a, some b => if isFinite s.arg0 then .ok (s.setShadow a b s.arg0) else .error .operand
      | _, _ => .error .illegal)
    s

/-- CF.READ (R144). -/
def execCfRead (st : Fin 16) (k : Fin 8) (s : State) : Result :=
  runCommand anyMode (encode (.cfRead st k))
    (fun s =>
      match stageOf st, coefOf k with
      | some a, some b => .ok (s.setRes0 (s.sh[a].get b))
      | _, _ => .error .illegal)
    s

/-- CF.SLOPE (R145). -/
def execCfSlope (c : Chain) (n : BitVec 2) (s : State) : Result :=
  runCommand anyMode (encode (.cfSlope c n)) (fun s => .ok (s.setSlope c n)) s

/-- `activeCount = n + 1` for the slope code n (R141). -/
def activeCount (n : BitVec 2) : Nat := n.toNat + 1

/-- The slots a slope code makes active, in index order (R141, R146). -/
def activeSlots (n : BitVec 2) : List (Fin 4) := slots.filter (fun i => decide (i.val < activeCount n))

/-- Phase 2 for one slot: its whole set is copied and it becomes Active (R146). -/
def State.commitSlot (c : Chain) (s : State) (i : Fin 4) : State := (s.loadStage (cutStage c i)).activate c i

/-- The two-phase update of one cut chain: all four slots Bypassed, then the active ones in index order (R146). -/
def State.commitChain (s : State) (c : Chain) : State :=
  (activeSlots (s.shslope.get c)).foldl (State.commitSlot c) (s.bypassChain c)

/-- The whole hot swap: the peak set, then the chains LC and HC (R146). -/
def State.committed (s : State) : State := ((s.loadStage peakStage).commitChain .lc).commitChain .hc

/-- CF.COMMIT (R146). -/
def execCfCommit (s : State) : Result := runCommand anyMode (encode .cfCommit) (fun s => .ok s.committed) s

/-- CF.STAT (R148). -/
def execCfStat (s : State) : Result :=
  runCommand anyMode (encode .cfStat) (fun s => .ok (s.setRes0 s.cfStatWord)) s

end Sys2Proof.Machine
end

