-- ==== Sys2Proof/Machine/Filter.lean ====
section
/-! DEFINITION. The biquad stage, the active-stage multiplexer and the chain (R160 to R163), and the commands BQ.PROC, BQ.PROC2,
BQ.RESET, BQ.RDSTATE and BQ.RDCOEF (spec 44_filter.md). -/

namespace Sys2Proof.Machine

/-- The arithmetic of one active stage, transposed direct form II in the order R160 writes it: the output and the new
delay words. Where a remark elsewhere says otherwise of some delay words, R160 is followed: an identity stage on -0.0 in its
delay words (log entry 14), and R164's remark on a NaN in s2 alone, which reaches the output one sample later (log entry
15). -/
def biquad (c : CoefSet) (d : Delay) (x : Word) : Word × Delay :=
  let y := fadd (fmul c.b0 x) d.s1
  let n1 := fadd (fsub (fmul c.b1 x) (fmul c.a1 y)) d.s2
  let n2 := fsub (fmul c.b2 x) (fmul c.a2 y)
  (y, ⟨n1, n2⟩)

/-- Whether a stage computes: a cut stage when its BYP flag is 0, the peak stage always (R161, R162). -/
def State.active (s : State) (st : Fin 9) : Bool :=
  if h : st.val < 4 then !s.byp.lc[st.val]
  else if h' : 5 ≤ st.val then !s.byp.hc[st.val - 5]
  else true

/-- One stage of a channel on a sample and the channel's delay lines: an active stage computes, a bypassed one passes the
word on and leaves its delay words (R160, R161). -/
def stageStep (coef : Vector CoefSet 9) (act : Fin 9 → Bool) (xd : Word × Vector Delay 9) (st : Fin 9) :
    Word × Vector Delay 9 :=
  if act st then
    let r := biquad coef[st] xd.2[st] xd.1
    (r.1, xd.2.set st r.2)
  else xd

/-- `chain(ch, x)` on the delay lines of one channel: the nine stages in order (R162). -/
def chainOn (coef : Vector CoefSet 9) (act : Fin 9 → Bool) (d : Vector Delay 9) (x : Word) : Word × Vector Delay 9 :=
  stages.foldl (stageStep coef act) (x, d)

/-- `chain(ch, x)` in a state: the output and the channel's new delay lines (R162, R163). -/
def State.chain (s : State) (ch : Channel) (x : Word) : Word × Vector Delay 9 :=
  chainOn s.coef s.active (s.dly.get ch) x

/-- BQ.PROC (R164). -/
def execBqProc (ch : Channel) (s : State) : Result :=
  runCommand [.run] (encode (.bqProc ch))
    (fun s => .ok ((s.setDelays ch (s.chain ch s.arg0).2).setRes0 (s.chain ch s.arg0).1))
    s

/-- BQ.PROC2 (R165): lane 0, then lane 1 on the state lane 0 leaves. -/
def execBqProc2 (s : State) : Result :=
  runCommand [.run] (encode .bqProc2)
    (fun s =>
      let l := s.chain .left s.arg0
      let s1 := s.setDelays .left l.2
      let r := s1.chain .right s1.arg1
      let s2 := s1.setDelays .right r.2
      .ok ((s2.setRes0 l.1).setRes1 r.1))
    s

/-- BQ.RESET (R166). -/
def execBqReset (s : State) : Result := runCommand anyMode (encode .bqReset) (fun s => .ok s.clearDelays) s

/-- BQ.RDSTATE (R167). -/
def execBqRdstate (ch : Channel) (st : Fin 16) (j : StateWord) (s : State) : Result :=
  runCommand anyMode (encode (.bqRdstate ch st j))
    (fun s =>
      match stageOf st with
      | some a => .ok (s.setRes0 ((s.dly.get ch)[a].get j))
      | none => .error .illegal)
    s

/-- BQ.RDCOEF (R168). -/
def execBqRdcoef (st : Fin 16) (k : Fin 8) (s : State) : Result :=
  runCommand anyMode (encode (.bqRdcoef st k))
    (fun s =>
      match stageOf st, coefOf k with
      | some a, some b => .ok (s.setRes0 (s.coef[a].get b))
      | _, _ => .error .illegal)
    s

end Sys2Proof.Machine
end

