-- ==== Sys2Proof/Machine/Oscillator.lean ====
section
/-! DEFINITION. The oscillator datapath (R120 to R122) and the commands OSC.SETFREQ, OSC.SAMPLE, OSC.STOP, OSC.STATUS and
OSC.READ (spec 42_oscillator.md). -/

namespace Sys2Proof.Machine

/-- The binary32 word of 1.0. -/
def one : Word := 0x3F800000

/-- `incOf(f) = fdiv(fmul(f, float(L)), SR)`: the product first, the quotient second (R120). -/
def incOf (len : TblLen) (sr f : Word) : Word := fdiv (fmul f (floatOfNat len.val)) sr

/-- The sum of the two weighted entries of R121, for a phase p whose floor is i. -/
def blend (p : Word) (i : Nat) (lo hi : Word) : Word :=
  let w1 := fsub p (floatOfNat i)
  let w0 := fsub one w1
  fadd (fmul w0 lo) (fmul w1 hi)

/-- `interp(p)`: linear interpolation between the entries `floorN(p)` and `(floorN(p) + 1) mod L`, for a phase in `[0, L)`
and written entries (R121). Elsewhere the rule states nothing. -/
def interp (len : TblLen) (tbl : Memory) (p : Word) : Word :=
  if inTable len p then
    match tbl.read (floorN p), tbl.read ((floorN p + 1) % len.val) with
    | some lo, some hi => blend p (floorN p) lo hi
    | _, _ => Config.interpOutside len tbl p
  else Config.interpOutside len tbl p

/-- `advance(p, inc) = wrapL(fadd(p, inc))` (R122). -/
def advance (len : TblLen) (p inc : Word) : Word := wrapL len (fadd p inc)

/-- OSC.SETFREQ (R123): the frequency is checked before the increment; PHASE[o] stays. -/
def execOscSetfreq (o : Fin 128) (s : State) : Result :=
  runCommand [.setup, .run] (encode (.oscSetfreq o))
    (fun s =>
      if validFreq s.arg0 then
        if validInc (incOf s.tblLen s.sr s.arg0) then .ok (s.setInc o (incOf s.tblLen s.sr s.arg0))
        else .error .operand
      else .error .operand)
    s

/-- OSC.SAMPLE (R124): the sample is taken at the phase before the advance. -/
def execOscSample (o : Fin 128) (s : State) : Result :=
  runCommand [.run] (encode (.oscSample o))
    (fun s =>
      if s.tblFull then
        .ok ((s.setRes0 (interp s.tblLen s.tbl s.phase[o])).setPhase o (advance s.tblLen s.phase[o] s.inc[o]))
      else .error .table)
    s

/-- OSC.STOP (R125). -/
def execOscStop (o : Fin 128) (s : State) : Result :=
  runCommand [.setup, .run] (encode (.oscStop o)) (fun s => .ok ((s.setPhase o 0).setInc o 0)) s

/-- OSC.STATUS (R126). -/
def execOscStatus (o : Fin 128) (s : State) : Result :=
  runCommand anyMode (encode (.oscStatus o)) (fun s => .ok (s.setRes0 (if s.playing o then 1 else 0))) s

/-- OSC.READ (R127). -/
def execOscRead (o : Fin 128) (s : State) : Result :=
  runCommand anyMode (encode (.oscRead o)) (fun s => .ok ((s.setRes0 s.phase[o]).setRes1 s.inc[o])) s

end Sys2Proof.Machine
end

