-- ==== Sys2Proof/Machine/Setup.lean ====
section
/-! DEFINITION. The setup commands NOP, PREPARE and START (spec 40_setup.md). -/

namespace Sys2Proof.Machine

/-- NOP (R100). -/
def execNop (s : State) : Result := runCommand anyMode (encode .nop) (fun s => .ok s) s

/-- What a successful PREPARE writes (R101, R222). -/
def State.prepared (s : State) : State :=
  s.latchSetup.clearOscillators.clearTable.clearDelays.setMode .setup

/-- PREPARE (R101). Refused operands also set MODE to UNPREP, the one effect a fault has beside its record (R202). -/
def execPrepare (s : State) : Result :=
  runCommand anyMode (encode .prepare)
    (fun s =>
      if validRate s.arg0 && validBlock s.arg1 then .ok s.prepared
      else .ok ((s.setMode .unprep).recordFault .operand (encode .prepare)))
    s

/-- START (R102). -/
def execStart (s : State) : Result := runCommand [.setup] (encode .start) (fun s => .ok (s.setMode .run)) s

end Sys2Proof.Machine
end

