-- ==== Sys2Proof/Machine/Wavetable.lean ====
section
/-! DEFINITION. The wavetable commands WT.WRITE and WT.READ (spec 41_wavetable.md). -/

namespace Sys2Proof.Machine

/-- WT.WRITE (R110): the range check comes before the operand check. -/
def execWtWrite (i : Fin 4096) (s : State) : Result :=
  runCommand [.setup] (encode (.wtWrite i))
    (fun s =>
      if s.tblLen.val ≤ i.val then .error .range
      else if isFinite s.arg0 then .ok (s.writeTable i.val (tableValue s.arg0))
      else .error .operand)
    s

/-- WT.READ (R111): the range check comes before the check of the written flag. -/
def execWtRead (i : Fin 4096) (s : State) : Result :=
  runCommand anyMode (encode (.wtRead i))
    (fun s =>
      if s.tblLen.val ≤ i.val then .error .range
      else
        match s.tbl.read i.val with
        | some v => .ok (s.setRes0 v)
        | none => .error .unwritten)
    s

end Sys2Proof.Machine
end

