-- ==== Sys2Proof/Machine/Dispatch.lean ====
section
/-! DEFINITION. One meaning for each command (R73, R201). -/

namespace Sys2Proof.Machine

def exec (i : Instr) (s : State) : Host.Outcome State Fault Refusal :=
  match i with
  | .nop => Sys2Proof.Machine.execNop s
  | .prepare => Sys2Proof.Machine.execPrepare s
  | .start => Sys2Proof.Machine.execStart s
  | .oscSetfreq o => Sys2Proof.Machine.execOscSetfreq o s
  | .oscSample o => Sys2Proof.Machine.execOscSample o s
  | .oscStop o => Sys2Proof.Machine.execOscStop o s
  | .oscStatus o => Sys2Proof.Machine.execOscStatus o s
  | .oscRead o => Sys2Proof.Machine.execOscRead o s
  | .wtWrite j => Sys2Proof.Machine.execWtWrite j s
  | .wtRead j => Sys2Proof.Machine.execWtRead j s
  | .cfWrite a k => Sys2Proof.Machine.execCfWrite a k s
  | .cfRead a k => Sys2Proof.Machine.execCfRead a k s
  | .cfSlope c n => Sys2Proof.Machine.execCfSlope c n s
  | .cfCommit => Sys2Proof.Machine.execCfCommit s
  | .cfStat => Sys2Proof.Machine.execCfStat s
  | .bqProc ch => Sys2Proof.Machine.execBqProc ch s
  | .bqProc2 => Sys2Proof.Machine.execBqProc2 s
  | .bqReset => Sys2Proof.Machine.execBqReset s
  | .bqRdstate ch a j => Sys2Proof.Machine.execBqRdstate ch a j s
  | .bqRdcoef a k => Sys2Proof.Machine.execBqRdcoef a k s

end Sys2Proof.Machine
end

