-- ==== Sys2Proof/Machine/Bus.lean ====
section
/-! DEFINITION. The host bus (spec 20_memory.md): the register map (R21), issuing a command (R27, R201), Read and Write (R51 to
R55), the reset input (R220), and serving one host event. -/

namespace Sys2Proof.Machine

/-- The twelve host-visible registers (R21). -/
inductive Reg where
  | id | cfg | status | err | errcmd | cmd | arg0 | arg1 | res0 | res1 | sr | maxblk
deriving DecidableEq, Repr

/-- The register at a byte offset; nothing at a misaligned or unmapped one (R21, R53, R54). -/
def regAt (off : Byte) : Option Reg :=
  match off.toNat with
  | 0x00 => some .id
  | 0x04 => some .cfg
  | 0x08 => some .status
  | 0x0C => some .err
  | 0x10 => some .errcmd
  | 0x14 => some .cmd
  | 0x18 => some .arg0
  | 0x1C => some .arg1
  | 0x20 => some .res0
  | 0x24 => some .res1
  | 0x28 => some .sr
  | 0x2C => some .maxblk
  | _ => none

/-- The word a register reads as (R21 to R29, R40). CMD stores nothing and reads 0 (R27). -/
def State.readReg (s : State) : Reg → Word
  | .id => Config.idWord
  | .cfg => s.cfgWord
  | .status => s.statusWord
  | .err => 0#24 ++ s.err
  | .errcmd => s.errcmd
  | .cmd => 0
  | .arg0 => s.arg0
  | .arg1 => s.arg1
  | .res0 => s.res0
  | .res1 => s.res1
  | .sr => s.sr
  | .maxblk => s.maxblk

/-- The ERRCMD record of a refused transaction, `{23'b0, W, off}` (R26). -/
def busInfo (isWrite : Bool) (off : Byte) : Word := 0#23 ++ BitVec.ofBool isWrite ++ off

/-- The word a Read returns goes to the host (R51, R225). -/
def State.reply (s : State) (w : Word) : State := { s with replies := s.replies ++ [w] }

/-- `Read(off)`: a mapped register's word; 0 and E_BUS from a misaligned or unmapped offset (R51, R53, R54). -/
def busRead (off : Byte) (s : State) : State :=
  match regAt off with
  | some r => s.reply (s.readReg r)
  | none => (s.recordFault .bus (busInfo false off)).reply 0

/-- Issuing the command word `w` (R27, R201): an illegal word is E_ILLEGAL, before any other check. -/
def issue (w : Word) (s : State) : Result :=
  match decode w with
  | .ok i => exec i s
  | .error _ => .next (s.recordFault .illegal w)

/-- `Write(off, w, be)`: ARG0 and ARG1 store, CMD issues; partial, misaligned, unmapped and read-only writes change
nothing and record E_BUS (R51, R53, R54). -/
def busWrite (off : Byte) (w : Word) (be : BitVec 4) (s : State) : Result :=
  if be = 0b1111#4 then
    match regAt off with
    | some .arg0 => .next { s with arg0 := w }
    | some .arg1 => .next { s with arg1 := w }
    | some .cmd => issue w s
    | _ => .next (s.recordFault .bus (busInfo true off))
  else .next (s.recordFault .bus (busInfo true off))

/-- The reset input: every state element of the block at its reset value; the parameter L and the host's own two lists
are no state of the block and stay (R220). -/
def assertReset (s : State) : State :=
  { State.resetOf s.tblLen with pending := s.pending, replies := s.replies }

/-- Serving one host event, each whole before the next (R56, R57). -/
def serve (e : HostEvent) (s : State) : Result :=
  match e with
  | .reset => .next (assertReset s)
  | .read off => .next (busRead off s)
  | .write off w be => busWrite off w be s

/-- The step of the machine: the next event the host has waiting; with none waiting nothing changes (R42, R57, R213,
R225). -/
def stepBus (s : State) : Result :=
  match s.pending with
  | [] => .next s
  | e :: rest => serve e { s with pending := rest }

/-- The transaction that issues a command word: a whole-word Write to CMD (R27, R77). -/
def commandWrite (w : Word) : HostEvent := .write 0x14 w 0b1111#4

end Sys2Proof.Machine
end

