-- ==== Sys2Proof/Machine/Step.lean ====
section
/-! DEFINITION. The one step function. The block has no program counter (R42): its program is the host's list of bus
transactions, which the state holds, and a step serves the next of them. -/

namespace Sys2Proof.Machine

/-- One step: the host's next event is served (R57). -/
def step : State → Host.Outcome State Fault Refusal := stepBus

/-- The state with the command word of value `w` as the host's very next transaction, a Write to CMD (log entry 2). -/
def State.withFetchWord (s : State) (nbits w : Nat) : State :=
  { s with pending := commandWrite (BitVec.ofNat 32 (w % 2 ^ nbits)) :: s.pending }

end Sys2Proof.Machine
end

