-- ==== Sys2Proof/Safety.lean ====
section
/-! DEFINITION. What the claims speak of: the invariants of R41, a fault-free end of a run (R225), the mode table of R201 and
the illegal words of R76 written out on their own, and the value a command sees of a word. -/

namespace Sys2Proof.Machine

/-- A run is fault-free when STATUS.FAULT = 0 at its end (R225). -/
def State.faultFree (s : State) : Prop := s.fault = false

/-- The state with the host's inputs put in (R42, R225): how a run is given its transactions. -/
def State.withInputs (s : State) (es : List HostEvent) : State := { s with pending := es }

/-- A phase: +0.0 or a positive binary32 below L (R41.1). -/
def phaseOk (len : TblLen) (w : Word) : Prop :=
  w = 0 ∨ (isFinite w = true ∧ gtZero w = true ∧ magOf w < len.val * 2 ^ 149)

/-- An increment: +0.0 or a finite positive binary32 (R41.2). -/
def incOk (w : Word) : Prop := w = 0 ∨ (isFinite w = true ∧ gtZero w = true)

/-- A table entry: finite and not -0.0 (R41.4). -/
def entryOk (w : Word) : Prop := isFinite w = true ∧ w ≠ 0x80000000

/-- Every word of a coefficient set is finite (R41.7). -/
def setOk (c : CoefSet) : Prop := ∀ k : Coef, isFinite (c.get k) = true

/-- The bypass flags of a chain: no stage is active while a lower-numbered one is bypassed (R41.6). -/
def bypOk (b : Vector Bool 4) : Prop := ∀ i j : Fin 4, i < j → b[i] = true → b[j] = true

/-- The invariants of R41, and the two facts R25 and R203 give of the fault record, for states of the model: the table is
in its canonical form with every entry below L. -/
structure State.Inv (s : State) : Prop where
  phase_ok : ∀ o : Fin 128, phaseOk s.tblLen s.phase[o]
  inc_ok : ∀ o : Fin 128, incOk s.inc[o]
  stopped : ∀ o : Fin 128, s.inc[o] = 0 → s.phase[o] = 0
  tbl_wf : s.tbl.wf
  tbl_ok : ∀ (i : Nat) (v : Word), s.tbl.read i = some v → i < s.tblLen.val ∧ entryOk v
  byp_ok : ∀ c : Chain, bypOk (s.byp.get c)
  sh_ok : ∀ st : Fin 9, setOk s.sh[st]
  coef_ok : ∀ st : Fin 9, setOk s.coef[st]
  fault_err : s.fault = true ↔ s.err ≠ 0
  err_code : s.err.toNat ≤ 7
  no_record : s.err = 0 → s.errcmd = 0

/-- The table of R201: the modes in which a command runs. -/
def allowedIn : Instr → Mode → Bool
  | .nop, _ => true
  | .prepare, _ => true
  | .start, m => m == .setup
  | .oscSetfreq _, m => m != .unprep
  | .oscSample _, m => m == .run
  | .oscStop _, m => m != .unprep
  | .oscStatus _, _ => true
  | .oscRead _, _ => true
  | .wtWrite _, m => m == .setup
  | .wtRead _, _ => true
  | .cfWrite _ _, _ => true
  | .cfRead _ _, _ => true
  | .cfSlope _ _, _ => true
  | .cfCommit, _ => true
  | .cfStat, _ => true
  | .bqProc _, m => m == .run
  | .bqProc2, m => m == .run
  | .bqReset, _ => true
  | .bqRdstate _ _ _, _ => true
  | .bqRdcoef _ _, _ => true

/-- The opcode byte of a word (R71). -/
def opcodeOf (w : Word) : Nat := w.toNat / 2 ^ 24

/-- The 20 opcodes by format (R73). -/
def opcodesN : List Nat := [0x00, 0x01, 0x02, 0x33, 0x34, 0x41, 0x42]
/-- Format O (R73). -/
def opcodesO : List Nat := [0x10, 0x11, 0x12, 0x13, 0x14]
/-- Format T (R73). -/
def opcodesT : List Nat := [0x20, 0x21]
/-- Format C (R73). -/
def opcodesC : List Nat := [0x30, 0x31, 0x44]

/-- A one-bit field's value (R71, R72). -/
def chainBit : Chain → Nat
  | .lc => 0
  | .hc => 1
/-- A one-bit field's value (R71). -/
def channelBit : Channel → Nat
  | .left => 0
  | .right => 1
/-- A one-bit field's value (R71). -/
def stateBit : StateWord → Nat
  | .s1 => 0
  | .s2 => 1

/-- The value of a command's word, as the field table of R71 and the opcode map of R73 give it: the opcode in bits 31:24 and
each field from its lowest bit on. -/
def wordValue : Instr → Nat
  | .nop => 0x00 * 2 ^ 24
  | .prepare => 0x01 * 2 ^ 24
  | .start => 0x02 * 2 ^ 24
  | .oscSetfreq o => 0x10 * 2 ^ 24 + o.val
  | .oscSample o => 0x11 * 2 ^ 24 + o.val
  | .oscStop o => 0x12 * 2 ^ 24 + o.val
  | .oscStatus o => 0x13 * 2 ^ 24 + o.val
  | .oscRead o => 0x14 * 2 ^ 24 + o.val
  | .wtWrite i => 0x20 * 2 ^ 24 + i.val
  | .wtRead i => 0x21 * 2 ^ 24 + i.val
  | .cfWrite s k => 0x30 * 2 ^ 24 + s.val * 2 ^ 3 + k.val
  | .cfRead s k => 0x31 * 2 ^ 24 + s.val * 2 ^ 3 + k.val
  | .cfSlope c n => 0x32 * 2 ^ 24 + chainBit c * 2 ^ 2 + n.toNat
  | .cfCommit => 0x33 * 2 ^ 24
  | .cfStat => 0x34 * 2 ^ 24
  | .bqProc ch => 0x40 * 2 ^ 24 + channelBit ch
  | .bqProc2 => 0x41 * 2 ^ 24
  | .bqReset => 0x42 * 2 ^ 24
  | .bqRdstate ch s j => 0x43 * 2 ^ 24 + channelBit ch * 2 ^ 5 + s.val * 2 + stateBit j
  | .bqRdcoef s k => 0x44 * 2 ^ 24 + s.val * 2 ^ 3 + k.val

/-- The illegal words, case by case as R76 and the field table of R71 list them, in arithmetic on the word's value. -/
def illegalWord (w : Word) : Prop :=
  let p := opcodeOf w
  let low := w.toNat % 2 ^ 24
  (p ∉ opcodesN ∧ p ∉ opcodesO ∧ p ∉ opcodesT ∧ p ∉ opcodesC ∧ p ≠ 0x32 ∧ p ≠ 0x40 ∧ p ≠ 0x43) ∨
  (p ∈ opcodesN ∧ low ≠ 0) ∨
  (p ∈ opcodesO ∧ 2 ^ 7 ≤ low) ∨
  (p ∈ opcodesT ∧ 2 ^ 12 ≤ low) ∨
  (p ∈ opcodesC ∧ (2 ^ 7 ≤ low ∨ 8 < low / 2 ^ 3 % 2 ^ 4 ∨ 4 < low % 2 ^ 3)) ∨
  (p = 0x32 ∧ 2 ^ 3 ≤ low) ∨
  (p = 0x40 ∧ 2 ≤ low) ∨
  (p = 0x43 ∧ (2 ^ 6 ≤ low ∨ 8 < low / 2 % 2 ^ 4))

/-- The word is a NaN (R8). -/
def isNaN (w : Word) : Prop := expField w = 255 ∧ fracField w ≠ 0

/-- The word is an infinity, of either sign (R8). -/
def isInf (w : Word) : Prop := w = 0x7F800000 ∨ w = 0xFF800000

/-- The word is a zero, of either sign (R8). -/
def isZero (w : Word) : Prop := w = 0x00000000 ∨ w = 0x80000000

/-- The exact value of a finite word, signed, in units of 2^-149 (R8). -/
def valOf (w : Word) : Int := if signBit w then -(magOf w : Int) else magOf w

/-- A stage number 0 .. 8 as the field SET or STG that encodes it (R72). -/
def stageField (st : Fin 9) : Fin 16 := ⟨st.val, by omega⟩

/-- A coefficient as the field K that encodes it (R140). -/
def coefField : Coef → Fin 8
  | .b0 => 0
  | .b1 => 1
  | .b2 => 2
  | .a1 => 3
  | .a2 => 4

/-- The host event that issues PREPARE. -/
def isPrepare (e : HostEvent) : Prop := e = commandWrite 0x01000000

end Sys2Proof.Machine
end

