-- ==== Sys2Proof/Certificates/Slice0/Obligations.lean ====
section
/-! DEFINITION. The statements for the provers: what the rules of the spec say the block does, as propositions about the model.
A next state is written as the state before with the fields the rule changes, so that such an equation is also the frame. -/

open Sys2Proof Sys2Proof.Machine

/-! ### Encoding (30_encoding.md) -/

/-- R71, R73, R74: decoding the word of a legal command gives the command back, with every operand at every value, and that
word has the opcode of R73 and the fields at the places of R71. -/
def Obligations.DecodeOfEncodeIsTheCommand : Prop :=
  (∀ i : Instr, i.wellFormed = true → decode (encode i) = .ok i) ∧
  (∀ i : Instr, (encode i).toNat = wordValue i)

/-- R71, R73, R74: no bit of a legal word is dropped; the word of what it decodes to is the word itself. -/
def Obligations.EncodeOfDecodeIsTheWord : Prop :=
  ∀ (w : Word) (i : Instr), decode w = .ok i → encode i = w ∧ i.wellFormed = true

/-- R76: the illegal words are those its four cases list; each raises E_ILLEGAL with no other effect, and every other word
is a command. -/
def Obligations.IllegalWordsAreTheFourCases : Prop :=
  (∀ (w : Word) (s : State), illegalWord w → issue w s = .next (s.recordFault .illegal w)) ∧
  (∀ w : Word, ¬ illegalWord w → ∃ i, decode w = .ok i) ∧
  decode 0x00000000 = .ok .nop

/-- R75: the worked encodings. -/
def Obligations.WorkedEncodingsDecode : Prop :=
  decode 0x10000045 = .ok (.oscSetfreq 69) ∧
  decode 0x2000003F = .ok (.wtWrite 63) ∧
  decode 0x30000028 = .ok (.cfWrite 5 0) ∧
  decode 0x32000007 = .ok (.cfSlope .hc 3) ∧
  decode 0x40000001 = .ok (.bqProc .right) ∧
  decode 0x43000029 = .ok (.bqRdstate .right 4 .s2) ∧
  decode 0x33000000 = .ok .cfCommit

/-- R74: the matches are disjoint; a word selects at most one row of the table. -/
def Obligations.AtMostOneRowSelectsAWord : Prop :=
  ∀ w : Word, (rows.filter (fun r => r.selects w)).length ≤ 1

/-! ### The step and the bus (20_memory.md) -/

/-- R27, R56, R201: a whole-word Write to CMD runs the command its word decodes to, in the state without that
transaction; an illegal word records E_ILLEGAL. -/
def Obligations.StepRunsTheDecodedCommand : Prop :=
  ∀ (s : State) (w : Word) (rest : List HostEvent), s.pending = commandWrite w :: rest →
    (∀ i, decode w = .ok i → step s = exec i { s with pending := rest }) ∧
    (∀ e, decode w = .error e → step s = .next (State.recordFault { s with pending := rest } .illegal w))

/-- R206, R225, R226: no fault makes the block stop or hang; every step completes, serves exactly the next event and keeps
the parameter L, and with nothing waiting nothing changes. That the waiting events are held in the state, and the idle step,
are the model's own (log entry 2). -/
def Obligations.EveryStepCompletes : Prop :=
  (∀ s : State, ∃ t, step s = .next t ∧ t.pending = s.pending.tail ∧ t.tblLen = s.tblLen) ∧
  (∀ s : State, s.pending = [] → step s = .next s)

/-- R21, R51: a Read of a mapped offset returns that register's word and changes nothing of the block. -/
def Obligations.ReadReturnsTheRegister : Prop :=
  ∀ (s : State) (off : Byte) (w : Word) (rest : List HostEvent), s.pending = .read off :: rest →
    (off, w) ∈ [(0x00#8, 0x57544251#32), (0x04#8, s.cfgWord), (0x08#8, s.statusWord), (0x0C#8, s.err.setWidth 32),
      (0x10#8, s.errcmd), (0x14#8, 0#32), (0x18#8, s.arg0), (0x1C#8, s.arg1), (0x20#8, s.res0), (0x24#8, s.res1),
      (0x28#8, s.sr), (0x2C#8, s.maxblk)] →
    step s = .next { s with pending := rest, replies := s.replies ++ [w] }

/-- R53: a misaligned Read returns 0, a misaligned or partial Write changes nothing, and both record E_BUS with ERRCMD =
{23'b0, W, off}. -/
def Obligations.MisalignedAndPartialAccessesAreRefused : Prop :=
  (∀ (s : State) (off : Byte) (rest : List HostEvent), off.toNat % 4 ≠ 0 → s.pending = .read off :: rest →
    step s = .next { State.recordFault { s with pending := rest } .bus (0#23 ++ 0#1 ++ off) with
      replies := s.replies ++ [0] }) ∧
  (∀ (s : State) (off : Byte) (w : Word) (be : BitVec 4) (rest : List HostEvent),
    off.toNat % 4 ≠ 0 ∨ be ≠ 0b1111#4 → s.pending = .write off w be :: rest →
    step s = .next (State.recordFault { s with pending := rest } .bus (0#23 ++ 1#1 ++ off)))

/-- R54: unmapped and read-only offsets, and the reads that record nothing. -/
def Obligations.UnmappedAndReadOnlyAccesses : Prop :=
  (∀ (s : State) (off : Byte) (rest : List HostEvent), off.toNat % 4 = 0 → 0x30 ≤ off.toNat →
    s.pending = .read off :: rest →
    step s = .next { State.recordFault { s with pending := rest } .bus (0#23 ++ 0#1 ++ off) with
      replies := s.replies ++ [0] }) ∧
  (∀ (s : State) (off : Byte) (w : Word) (rest : List HostEvent), off.toNat % 4 = 0 →
    0x30 ≤ off.toNat ∨ off ∈ [0x00#8, 0x04#8, 0x08#8, 0x0C#8, 0x10#8, 0x20#8, 0x24#8, 0x28#8, 0x2C#8] →
    s.pending = .write off w 0b1111#4 :: rest →
    step s = .next (State.recordFault { s with pending := rest } .bus (0#23 ++ 1#1 ++ off))) ∧
  (∀ (s : State) (rest : List HostEvent), s.pending = .read 0x14 :: rest →
    step s = .next { s with pending := rest, replies := s.replies ++ [0] }) ∧
  (∀ (s : State) (off : Byte) (rest : List HostEvent), off.toNat % 4 = 0 → off.toNat < 0x30 →
    s.pending = .read off :: rest →
    ∃ t, step s = .next t ∧ t.fault = s.fault ∧ t.err = s.err ∧ t.errcmd = s.errcmd)

/-- R28: a host write stores all 32 bits of ARG0 or ARG1, a host read returns them, no command writes them, and both
reset to 0. -/
def Obligations.OperandRegistersHoldWhatTheHostWrites : Prop :=
  (∀ (s : State) (w : Word) (rest : List HostEvent), s.pending = .write 0x18 w 0b1111#4 :: .read 0x18 :: rest →
    ∃ u, step s = .next u ∧ step u = .next { s with pending := rest, arg0 := w, replies := s.replies ++ [w] }) ∧
  (∀ (s : State) (w : Word) (rest : List HostEvent), s.pending = .write 0x1C w 0b1111#4 :: .read 0x1C :: rest →
    ∃ u, step s = .next u ∧ step u = .next { s with pending := rest, arg1 := w, replies := s.replies ++ [w] }) ∧
  (∀ (i : Instr) (s t : State), exec i s = .next t → t.arg0 = s.arg0 ∧ t.arg1 = s.arg1) ∧
  (∀ len : TblLen, (State.resetOf len).arg0 = 0 ∧ (State.resetOf len).arg1 = 0)

/-- R23: the fields of CFG, its word at the default L, that a Read of 0x04 returns it, that a Write there is refused, and
that nothing ever changes it. -/
def Obligations.CfgWordFields : Prop :=
  (∀ s : State, (s.cfgWord.extractLsb' 0 16).toNat = s.tblLen.val ∧ s.cfgWord.extractLsb' 16 8 = 0#8 ∧
    s.cfgWord.extractLsb' 24 8 = 0x7F#8) ∧
  (∀ (s : State) (rest : List HostEvent), s.pending = .read 0x04 :: rest →
    step s = .next { s with pending := rest, replies := s.replies ++ [s.cfgWord] }) ∧
  (∀ (s : State) (w : Word) (be : BitVec 4) (rest : List HostEvent), s.pending = .write 0x04 w be :: rest →
    step s = .next (State.recordFault { s with pending := rest } .bus 0x00000104)) ∧
  (∀ s t : State, step s = .next t → t.cfgWord = s.cfgWord) ∧
  State.reset.cfgWord = 0x7F000040

/-- R24: the fields of STATUS. -/
def Obligations.StatusWordFields : Prop :=
  ∀ s : State,
    (s.statusWord.extractLsb' 0 2 = 0 ↔ s.mode = .unprep) ∧
    (s.statusWord.extractLsb' 0 2 = 1 ↔ s.mode = .setup) ∧
    (s.statusWord.extractLsb' 0 2 = 2 ↔ s.mode = .run) ∧
    s.statusWord.getLsbD 2 = s.fault ∧
    (s.statusWord.getLsbD 3 = true ↔ ∀ i, i < s.tblLen.val → ∃ v, s.tbl.read i = some v) ∧
    s.statusWord.extractLsb' 4 28 = 0

/-! ### Faults (60_exceptions.md) -/

/-- R200, R203: the first fault since reset is recorded with its code, a later one changes neither ERR nor ERRCMD, each
sets FAULT, and nothing else changes. -/
def Obligations.RecordingAFault : Prop :=
  ∀ (s : State) (c : FaultCode) (code : Byte) (info : Word),
    (c, code) ∈ [(FaultCode.illegal, 1#8), (.mode, 2#8), (.range, 3#8), (.operand, 4#8), (.table, 5#8),
      (.unwritten, 6#8), (.bus, 7#8)] →
    (s.err = 0 → s.recordFault c info = { s with fault := true, err := code, errcmd := info }) ∧
    (s.err ≠ 0 → s.recordFault c info = { s with fault := true })

/-- R203: whatever is served but a reset, FAULT once set stays set and a recorded ERR and ERRCMD stay. -/
def Obligations.FaultRecordIsSticky : Prop :=
  ∀ s t : State, step s = .next t → s.pending.head? ≠ some .reset →
    (s.fault = true → t.fault = true) ∧
    (s.err ≠ 0 → t.err = s.err ∧ t.errcmd = s.errcmd)

/-- R202, R26: a command that raises a fault (seen as FAULT newly set) changes nothing but the record, which holds its
code and its word (`encode i`, log entry 5);
PREPARE alone also sets MODE to UNPREP, with E_OPERAND. -/
def Obligations.FaultingCommandsChangeOnlyTheRecord : Prop :=
  ∀ (i : Instr) (s t : State), s.fault = false → s.err = 0 → exec i s = .next t → t.fault = true →
    1 ≤ t.err.toNat ∧ t.err.toNat ≤ 6 ∧
    (t = { s with fault := true, err := t.err, errcmd := encode i } ∨
     (i = .prepare ∧ t = { s with mode := .unprep, fault := true, err := 4, errcmd := encode i }))

/-- R201: outside its modes a command only records E_MODE, and within them it never reports E_MODE. -/
def Obligations.ModeTableDecidesEMode : Prop :=
  (∀ (i : Instr) (s : State), allowedIn i s.mode = false → exec i s = .next (s.recordFault .mode (encode i))) ∧
  (∀ (i : Instr) (s t : State), allowedIn i s.mode = true → s.err = 0 → exec i s = .next t → t.err ≠ 2)

/-- R76, R201: a term whose SET, K or STG is out of range is E_ILLEGAL in every mode, and nothing else happens.
That exec has a meaning for such a term, which no legal word encodes, is the model's choice (log entry 5). -/
def Obligations.FieldsOutOfRangeAreIllegal : Prop :=
  ∀ (i : Instr) (s : State), i.wellFormed = false → exec i s = .next (s.recordFault .illegal (encode i))

/-! ### Setup commands (40_setup.md) -/

/-- R100: NOP is the word 0, runs in every mode and changes nothing, and so does writing 0 to CMD; with any of bits 23:0 set
it is E_ILLEGAL. -/
def Obligations.NopChangesNothing : Prop :=
  encode .nop = 0x00000000 ∧ (∀ s : State, exec .nop s = .next s) ∧
  (∀ (s : State) (rest : List HostEvent), s.pending = .write 0x14 0x00000000 0b1111#4 :: rest →
    step s = .next { s with pending := rest }) ∧
  (∀ (w : Word) (s : State), opcodeOf w = 0x00 → w ≠ 0 → issue w s = .next (s.recordFault .illegal w))

/-- R101, R222: PREPARE with a finite positive sample rate and a positive block size, in any mode. -/
def Obligations.PrepareOpensSetup : Prop :=
  ∀ s : State, isFinite s.arg0 = true → gtZero s.arg0 = true → 0 < s.arg1.toInt →
    exec .prepare s = .next { s with
      sr := s.arg0, maxblk := s.arg1, mode := .setup, tbl := [],
      phase := Vector.replicate 128 0, inc := Vector.replicate 128 0,
      dly := ⟨Vector.replicate 9 ⟨0, 0⟩, Vector.replicate 9 ⟨0, 0⟩⟩ }

/-- R101, R202: PREPARE with refused operands sets MODE to UNPREP, records E_OPERAND and changes nothing else. -/
def Obligations.PrepareRefusesBadOperands : Prop :=
  ∀ s : State, isFinite s.arg0 = false ∨ gtZero s.arg0 = false ∨ s.arg1.toInt ≤ 0 →
    exec .prepare s = .next { s.recordFault .operand 0x01000000 with mode := .unprep }

/-- R102: START enters RUN from SETUP, table loaded or not, and raises E_MODE elsewhere. -/
def Obligations.StartEntersRun : Prop :=
  ∀ s : State,
    (s.mode = .setup → exec .start s = .next { s with mode := .run }) ∧
    (s.mode ≠ .setup → exec .start s = .next (s.recordFault .mode 0x02000000))

/-- R103: the mode transitions as a whole. -/
def Obligations.ModeTransitionTable : Prop :=
  (∀ s t : State, s.pending.head? = some .reset → step s = .next t → t.mode = .unprep) ∧
  (∀ s : State, validRate s.arg0 = true → validBlock s.arg1 = true → ∃ t, exec .prepare s = .next t ∧ t.mode = .setup) ∧
  (∀ s : State, (validRate s.arg0 && validBlock s.arg1) = false →
    ∃ t, exec .prepare s = .next t ∧ t.mode = .unprep ∧ t.fault = true ∧ (s.err = 0 → t.err = 4)) ∧
  (∀ (w : Word) (s : State), opcodeOf w = 0x01 → w ≠ 0x01000000 →
    ∃ t, issue w s = .next t ∧ t.mode = s.mode ∧ t.fault = true ∧ (s.err = 0 → t.err = 1)) ∧
  (∀ s : State, s.mode = .setup → ∃ t, exec .start s = .next t ∧ t.mode = .run) ∧
  (∀ s : State, s.mode ≠ .setup →
    ∃ t, exec .start s = .next t ∧ t.mode = s.mode ∧ t.fault = true ∧ (s.err = 0 → t.err = 2)) ∧
  (∀ (i : Instr) (s t : State), i ≠ .prepare → i ≠ .start → exec i s = .next t → t.mode = s.mode) ∧
  (∀ s t : State, s.mode = .run → step s = .next t → t.mode ≠ .run →
    s.pending.head? = some .reset ∨ s.pending.head? = some (commandWrite 0x01000000))

/-! ### Wavetable commands (41_wavetable.md) -/

/-- R110: in SETUP, WT.WRITE of an index below L stores ARG0, with -0.0 stored as +0.0, and nothing else changes: every
other entry reads as before. -/
def Obligations.WtWriteStoresOneEntry : Prop :=
  ∀ (s : State) (i : Fin 4096), s.mode = .setup → i.val < s.tblLen.val → isFinite s.arg0 = true →
    ∃ t, exec (.wtWrite i) s = .next t ∧
      t.tbl.read i.val = some (if s.arg0 = 0x80000000 then 0 else s.arg0) ∧
      (∀ j, j ≠ i.val → t.tbl.read j = s.tbl.read j) ∧
      { t with tbl := s.tbl } = s

/-- R110, R201: the order of WT.WRITE's checks: the mode, the range, the operand. -/
def Obligations.WtWriteChecksInOrder : Prop :=
  ∀ (s : State) (i : Fin 4096),
    (s.mode ≠ .setup → exec (.wtWrite i) s = .next (s.recordFault .mode (encode (.wtWrite i)))) ∧
    (s.mode = .setup → s.tblLen.val ≤ i.val →
      exec (.wtWrite i) s = .next (s.recordFault .range (encode (.wtWrite i)))) ∧
    (s.mode = .setup → i.val < s.tblLen.val → isFinite s.arg0 = false →
      exec (.wtWrite i) s = .next (s.recordFault .operand (encode (.wtWrite i))))

/-- R111: WT.READ in any mode: a written entry goes to RES0; the range fault comes before the written-flag fault. -/
def Obligations.WtReadReturnsTheEntry : Prop :=
  ∀ (s : State) (i : Fin 4096),
    (∀ v, i.val < s.tblLen.val → s.tbl.read i.val = some v → exec (.wtRead i) s = .next { s with res0 := v }) ∧
    (s.tblLen.val ≤ i.val → exec (.wtRead i) s = .next (s.recordFault .range (encode (.wtRead i)))) ∧
    (i.val < s.tblLen.val → s.tbl.read i.val = none →
      exec (.wtRead i) s = .next (s.recordFault .unwritten (encode (.wtRead i))))

/-- R112: in RUN no command but PREPARE changes the table, WT.WRITE raises E_MODE, and a successful PREPARE invalidates
every entry. -/
def Obligations.TableIsImmutableInRun : Prop :=
  (∀ (i : Instr) (s t : State), s.mode = .run → i ≠ .prepare → exec i s = .next t → t.tbl = s.tbl) ∧
  (∀ (i : Fin 4096) (s : State), s.mode = .run →
    exec (.wtWrite i) s = .next (s.recordFault .mode (encode (.wtWrite i)))) ∧
  (∀ s : State, s.mode = .run → validRate s.arg0 = true → validBlock s.arg1 = true →
    ∃ t, exec .prepare s = .next t ∧ ∀ i, t.tbl.read i = none)

/-! ### Oscillator commands (42_oscillator.md) -/

/-- R120, R123: OSC.SETFREQ writes fdiv(fmul(f, float(L)), SR) to INC[o] and nothing else. -/
def Obligations.SetfreqWritesTheIncrement : Prop :=
  ∀ (s : State) (o : Fin 128) (x : Word), s.mode ≠ .unprep → isFinite s.arg0 = true → geZero s.arg0 = true →
    x = fdiv (fmul s.arg0 (floatOfNat s.tblLen.val)) s.sr → isFinite x = true → gtZero x = true →
    exec (.oscSetfreq o) s = .next { s with inc := s.inc.set o x }

/-- R123: what OSC.SETFREQ refuses, INC[o] unchanged: a frequency that is not finite or is negative, an increment that is
not finite and positive, and both zeros whatever SR holds. -/
def Obligations.SetfreqRefusals : Prop :=
  ∀ (s : State) (o : Fin 128),
    (s.mode = .unprep → exec (.oscSetfreq o) s = .next (s.recordFault .mode (encode (.oscSetfreq o)))) ∧
    (s.mode ≠ .unprep → isFinite s.arg0 = false ∨ geZero s.arg0 = false ∨
        isFinite (fdiv (fmul s.arg0 (floatOfNat s.tblLen.val)) s.sr) = false ∨
        gtZero (fdiv (fmul s.arg0 (floatOfNat s.tblLen.val)) s.sr) = false →
      exec (.oscSetfreq o) s = .next (s.recordFault .operand (encode (.oscSetfreq o)))) ∧
    (s.mode ≠ .unprep → s.arg0 = 0x00000000 ∨ s.arg0 = 0x80000000 →
      exec (.oscSetfreq o) s = .next (s.recordFault .operand (encode (.oscSetfreq o))))

/-- R121, R122, R124: OSC.SAMPLE in RUN with a full table: RES0 is the two-weight sum at the present phase, and the phase
then advances and wraps. -/
def Obligations.SampleInterpolatesAndAdvances : Prop :=
  ∀ (s : State) (o : Fin 128) (lo hi w0 w1 : Word),
    s.mode = .run → s.tblFull = true →
    isFinite s.phase[o] = true → 0 ≤ valOf s.phase[o] → valOf s.phase[o] < s.tblLen.val * 2 ^ 149 →
    s.tbl.read (floorN s.phase[o]) = some lo →
    s.tbl.read ((floorN s.phase[o] + 1) % s.tblLen.val) = some hi →
    w1 = fsub s.phase[o] (floatOfNat (floorN s.phase[o])) → w0 = fsub 0x3F800000 w1 →
    exec (.oscSample o) s = .next { s with
      res0 := fadd (fmul w0 lo) (fmul w1 hi)
      phase := s.phase.set o (wrapL s.tblLen (fadd s.phase[o] s.inc[o])) }

/-- R124: OSC.SAMPLE outside RUN is E_MODE; in RUN with an unwritten entry it is E_TABLE; RES0 and the phase stay. -/
def Obligations.SampleRefusals : Prop :=
  ∀ (s : State) (o : Fin 128),
    (s.mode ≠ .run → exec (.oscSample o) s = .next (s.recordFault .mode (encode (.oscSample o)))) ∧
    (∀ i, s.mode = .run → i < s.tblLen.val → s.tbl.read i = none →
      exec (.oscSample o) s = .next (s.recordFault .table (encode (.oscSample o))))

/-- R129: at an integer phase k a sample is exactly the word of TBL[k]: the weights are 1.0 and +0, the upper product is a
zero, and TBL[k] plus a zero is TBL[k]. -/
def Obligations.SampleIsExactAtIntegerPhase : Prop :=
  ∀ (s : State) (o : Fin 128) (k : Nat), s.Inv → s.mode = .run → s.tblFull = true → k < s.tblLen.val →
    s.phase[o] = floatOfNat k →
    floorN s.phase[o] = k ∧ fsub s.phase[o] (floatOfNat k) = 0x00000000 ∧
    fsub 0x3F800000 0x00000000 = 0x3F800000 ∧
    ∃ t lo hi, exec (.oscSample o) s = .next t ∧ s.tbl.read k = some lo ∧
      s.tbl.read ((k + 1) % s.tblLen.val) = some hi ∧
      fmul 0x3F800000 lo = lo ∧ (fmul 0x00000000 hi = 0x00000000 ∨ fmul 0x00000000 hi = 0x80000000) ∧
      fadd lo 0x00000000 = lo ∧ fadd lo 0x80000000 = lo ∧ lo ≠ 0x80000000 ∧
      fadd 0x00000000 0x80000000 = 0x00000000 ∧ t.res0 = lo

/-- R130: after OSC.STOP o every OSC.SAMPLE o returns TBL[0] and leaves PHASE[o] = INC[o] = +0. -/
def Obligations.SampleAfterStopIsEntryZero : Prop :=
  (∀ (s : State) (o : Fin 128), s.mode ≠ .unprep →
    ∃ t, exec (.oscStop o) s = .next t ∧ t.phase[o] = 0 ∧ t.inc[o] = 0) ∧
  (∀ (s : State) (o : Fin 128), s.Inv → s.mode = .run → s.tblFull = true → s.phase[o] = 0 → s.inc[o] = 0 →
    ∃ t, exec (.oscSample o) s = .next t ∧ s.tbl.read 0 = some t.res0 ∧ t.phase[o] = 0 ∧ t.inc[o] = 0)

/-- R12, R128: the advance of a legal phase by a legal increment, of L or more too, lies in [0, L); and the helpers of R12 it
and the sample rest on: wrapL is the exact remainder modulo L, never -0; floorN is the greatest natural number not above;
float is exact up to 2^24; the comparisons with zero are those of the value, false for a NaN but for x != 0. -/
def Obligations.AdvanceStaysInTheTable : Prop :=
  (∀ (len : TblLen) (p x : Word), phaseOk len p → incOk x →
    phaseOk len (advance len p x) ∧ advance len p x = wrapL len (fadd p x)) ∧
  (∀ (len : TblLen) (x : Word), isFinite x = true → 0 ≤ valOf x →
    isFinite (wrapL len x) = true ∧ signBit (wrapL len x) = false ∧
    magOf (wrapL len x) = magOf x % (len.val * 2 ^ 149)) ∧
  (∀ x : Word, isFinite x = true → 0 ≤ valOf x →
    floorN x * 2 ^ 149 ≤ magOf x ∧ ∀ n : Nat, n * 2 ^ 149 ≤ magOf x → n ≤ floorN x) ∧
  (∀ n : Nat, n ≤ 2 ^ 24 →
    isFinite (floatOfNat n) = true ∧ signBit (floatOfNat n) = false ∧ magOf (floatOfNat n) = n * 2 ^ 149) ∧
  (∀ x : Word, isFinite x = true ↔ expField x ≠ 0xFF) ∧
  (∀ x : Word, isFinite x = true →
    (gtZero x = true ↔ 0 < valOf x) ∧ (geZero x = true ↔ 0 ≤ valOf x) ∧ (neZero x = true ↔ valOf x ≠ 0)) ∧
  (∀ x : Word, isNaN x → gtZero x = false ∧ geZero x = false ∧ neZero x = true) ∧
  (gtZero 0x7F800000 = true ∧ geZero 0x7F800000 = true ∧ neZero 0x7F800000 = true) ∧
  (gtZero 0xFF800000 = false ∧ geZero 0xFF800000 = false ∧ neZero 0xFF800000 = true)

/-- R125: OSC.STOP clears one oscillator, is idempotent, and is E_MODE in UNPREP. -/
def Obligations.StopSilencesOneOscillator : Prop :=
  ∀ (s : State) (o : Fin 128),
    (s.mode ≠ .unprep →
      exec (.oscStop o) s = .next { s with phase := s.phase.set o 0, inc := s.inc.set o 0 } ∧
      exec (.oscStop o) { s with phase := s.phase.set o 0, inc := s.inc.set o 0 } =
        .next { s with phase := s.phase.set o 0, inc := s.inc.set o 0 }) ∧
    (s.mode = .unprep → exec (.oscStop o) s = .next (s.recordFault .mode (encode (.oscStop o))))

/-- R126: OSC.STATUS answers 1 exactly when INC[o] is not +0.0, in any mode, for the increments R41 allows; only RES0
changes. -/
def Obligations.StatusTellsPlaying : Prop :=
  ∀ (s : State) (o : Fin 128), incOk s.inc[o] →
    exec (.oscStatus o) s = .next { s with res0 := if s.inc[o] = 0 then 0 else 1 }

/-- R127: OSC.READ shows the phase and the increment, in any mode. -/
def Obligations.ReadShowsTheOscillator : Prop :=
  ∀ (s : State) (o : Fin 128), exec (.oscRead o) s = .next { s with res0 := s.phase[o], res1 := s.inc[o] }

/-! ### Coefficient loader (43_coef_loader.md) -/

/-- R143: CF.WRITE of a finite ARG0 writes that one shadow word, in any mode; a non-finite one is E_OPERAND. -/
def Obligations.CfWriteStagesOneCoefficient : Prop :=
  ∀ (s : State) (st : Fin 9) (k : Coef),
    (isFinite s.arg0 = true →
      ∃ t, exec (.cfWrite (stageField st) (coefField k)) s = .next t ∧
        t.sh[st].get k = s.arg0 ∧
        (∀ j, j ≠ k → t.sh[st].get j = s.sh[st].get j) ∧
        (∀ st' : Fin 9, st' ≠ st → t.sh[st'] = s.sh[st']) ∧
        { t with sh := s.sh } = s) ∧
    (isFinite s.arg0 = false →
      exec (.cfWrite (stageField st) (coefField k)) s =
        .next (s.recordFault .operand (encode (.cfWrite (stageField st) (coefField k)))))

/-- R140, R144, R168: CF.READ shows a shadow word and BQ.RDCOEF an active one, in any mode; only RES0 changes. The words of
a set are numbered b0, b1, b2, a1, a2. -/
def Obligations.CoefficientReads : Prop :=
  ∀ (s : State) (st : Fin 9) (k : Coef),
    exec (.cfRead (stageField st) (coefField k)) s = .next { s with res0 := s.sh[st].get k } ∧
    exec (.bqRdcoef (stageField st) (coefField k)) s = .next { s with res0 := s.coef[st].get k } ∧
    (∀ c : CoefSet, c.get .b0 = c.b0 ∧ c.get .b1 = c.b1 ∧ c.get .b2 = c.b2 ∧ c.get .a1 = c.a1 ∧ c.get .a2 = c.a2)

/-- R145: CF.SLOPE writes one shadow slope code, in any mode. -/
def Obligations.CfSlopeStagesTheSlope : Prop :=
  ∀ (s : State) (n : BitVec 2),
    exec (.cfSlope .lc n) s = .next { s with shslope := ⟨n, s.shslope.hc⟩ } ∧
    exec (.cfSlope .hc n) s = .next { s with shslope := ⟨s.shslope.lc, n⟩ }

/-- R72, R146, R147, R169: CF.COMMIT in any mode: flag i of a chain becomes 1 exactly from the active count on; the peak
stage (number 4) and every active cut stage (number i of LC, 5 + i of HC) take their shadow sets, the others keep theirs; and
nothing else changes, the delay state least of all. -/
def Obligations.CommitSwapsTheActiveBank : Prop :=
  ∀ s : State, ∃ t, exec .cfCommit s = .next t ∧
    (∀ i : Fin 4, t.byp.lc[i] = decide (s.shslope.lc.toNat + 1 ≤ i.val) ∧
      t.byp.hc[i] = decide (s.shslope.hc.toNat + 1 ≤ i.val)) ∧
    (∀ st : Fin 9, t.coef[st] =
      if st.val = 4 ∨ (st.val < 4 ∧ st.val < s.shslope.lc.toNat + 1) ∨
          (5 ≤ st.val ∧ st.val - 5 < s.shslope.hc.toNat + 1) then s.sh[st]
      else s.coef[st]) ∧
    { t with coef := s.coef, byp := s.byp } = s

/-- R146: committing again is idempotent. -/
def Obligations.CommitIsIdempotent : Prop :=
  ∀ s : State, ∃ t, exec .cfCommit s = .next t ∧ exec .cfCommit t = .next t

/-- R147.3: slope 12 to 48 and back to 12 leaves stage 0 active and stages 1 to 3 bypassed, from any state. -/
def Obligations.SlopeUpAndDownLeavesStageZero : Prop :=
  ∀ (s : State) (c : Chain), ∃ t u v w,
    exec (.cfSlope c 3) s = .next t ∧ exec .cfCommit t = .next u ∧
    u.byp.get c = #v[false, false, false, false] ∧
    exec (.cfSlope c 0) u = .next v ∧ exec .cfCommit v = .next w ∧
    w.byp.get c = #v[false, true, true, true]

/-- R148: CF.STAT packs the slopes and the bypass flags into RES0, in any mode; after reset it reads 0x000000FF. -/
def Obligations.CfStatPacksFlagsAndSlopes : Prop :=
  (∀ s : State, ∃ t, exec .cfStat s = .next t ∧ { t with res0 := s.res0 } = s ∧
    (∀ i : Fin 4, t.res0.getLsbD i.val = s.byp.lc[i]) ∧
    (∀ i : Fin 4, t.res0.getLsbD (4 + i.val) = s.byp.hc[i]) ∧
    t.res0.extractLsb' 8 2 = s.shslope.lc ∧ t.res0.extractLsb' 10 2 = 0 ∧
    t.res0.extractLsb' 12 2 = s.shslope.hc ∧ t.res0.extractLsb' 14 18 = 0) ∧
  (∀ len : TblLen, (State.resetOf len).cfStatWord = 0x000000FF)

/-- R142: the shadow bank and the shadow slopes have no effect on processing: with others in their place, a filter command
gives the same results and the same delay state. -/
def Obligations.ShadowBankDoesNotReachProcessing : Prop :=
  ∀ (s : State) (sh : Vector CoefSet 9) (sl : PerChain (BitVec 2)) (ch : Channel), s.mode = .run →
    (∃ t, exec (.bqProc ch) s = .next t ∧
      exec (.bqProc ch) { s with sh := sh, shslope := sl } = .next { t with sh := sh, shslope := sl }) ∧
    (∃ t, exec .bqProc2 s = .next t ∧
      exec .bqProc2 { s with sh := sh, shslope := sl } = .next { t with sh := sh, shslope := sl })

/-! ### Filter commands (44_filter.md) -/

/-- R160, R161, R162: BQ.PROC in RUN. For two kinds of delay words these are R160's equations by the model's choice, against a
remark elsewhere in the spec: a NaN in s2 alone, of which R164's corner case says that it gives the output 0x7FC00000 at once
(log entry 15, DEDUCED), and -0.0 in the delay words of an identity stage, of which R162, R164 and R220 say that the stage
maps -0.0 to +0.0 (log entry 14, DEDUCED). There are the nine words between the stages, from ARG0 to RES0: an active stage
computes the difference equations on its own delay words, a bypassed one passes its input word on and keeps its delay
words; nothing else changes, the other channel's delay state included. -/
def Obligations.ProcRunsTheStagesInOrder : Prop :=
  ∀ (s : State) (ch : Channel), s.mode = .run →
    ∃ (t : State) (x : Nat → Word), exec (.bqProc ch) s = .next t ∧ x 0 = s.arg0 ∧ t.res0 = x 9 ∧
      (∀ st : Fin 9,
        if (st.val < 4 ∧ s.byp.lc[st.val]? = some true) ∨ (5 ≤ st.val ∧ s.byp.hc[st.val - 5]? = some true) then
          x (st.val + 1) = x st.val ∧ (t.dly.get ch)[st] = (s.dly.get ch)[st]
        else
          x (st.val + 1) = fadd (fmul s.coef[st].b0 (x st.val)) (s.dly.get ch)[st].s1 ∧
          (t.dly.get ch)[st].s1 =
            fadd (fsub (fmul s.coef[st].b1 (x st.val)) (fmul s.coef[st].a1 (x (st.val + 1)))) (s.dly.get ch)[st].s2 ∧
          (t.dly.get ch)[st].s2 =
            fsub (fmul s.coef[st].b2 (x st.val)) (fmul s.coef[st].a2 (x (st.val + 1)))) ∧
      (∀ ch', ch' ≠ ch → t.dly.get ch' = s.dly.get ch') ∧
      { t with res0 := s.res0, dly := s.dly } = s

/-- R165: BQ.PROC2 is BQ.PROC 0 on the left input followed by BQ.PROC 1 on the right input, and writes both results. -/
def Obligations.ProcTwoIsProcTwice : Prop :=
  ∀ s : State, s.mode = .run → ∃ l r, exec (.bqProc .left) s = .next l ∧
    exec (.bqProc .right) { l with arg0 := s.arg1 } = .next r ∧
    exec .bqProc2 s = .next { r with arg0 := s.arg0, res0 := l.res0, res1 := r.res0 }

/-- R165: equal inputs and equal delay states give bit-identical outputs and equal delay states. -/
def Obligations.EqualChannelsStayEqual : Prop :=
  ∀ s : State, s.mode = .run → s.arg0 = s.arg1 → s.dly.left = s.dly.right →
    ∃ t, exec .bqProc2 s = .next t ∧ t.res0 = t.res1 ∧ t.dly.left = t.dly.right

/-- R163: no computation of one channel reads or writes the other's delay state. -/
def Obligations.ChannelsAreIndependent : Prop :=
  ∀ (s : State) (d : Vector Delay 9), s.mode = .run →
    (∃ t, exec (.bqProc .left) s = .next t ∧ t.dly.right = s.dly.right ∧
      exec (.bqProc .left) { s with dly := ⟨s.dly.left, d⟩ } = .next { t with dly := ⟨t.dly.left, d⟩ }) ∧
    (∃ t, exec (.bqProc .right) s = .next t ∧ t.dly.left = s.dly.left ∧
      exec (.bqProc .right) { s with dly := ⟨d, s.dly.right⟩ } = .next { t with dly := ⟨d, t.dly.right⟩ })

/-- R220, R164: with the reset coefficients, flags and delay state, BQ.PROC returns every finite input, but -0.0 as +0.0. For
an input other than -0.0 nothing but RES0 changes, the delay state included, so that the same holds of the next sample (-0.0
inputs in a row: log entry 14). -/
def Obligations.ResetChainIsTheIdentity : Prop :=
  ∀ (s : State) (ch : Channel), s.mode = .run → isFinite s.arg0 = true →
    s.coef = (State.resetOf s.tblLen).coef → s.byp = (State.resetOf s.tblLen).byp →
    s.dly = (State.resetOf s.tblLen).dly →
    (s.arg0 ≠ 0x80000000 → exec (.bqProc ch) s = .next { s with res0 := s.arg0 }) ∧
    (s.arg0 = 0x80000000 → ∃ t, exec (.bqProc ch) s = .next t ∧ t.res0 = 0x00000000)

/-- R166: BQ.RESET writes +0.0 to every delay word, in any mode, and nothing else. -/
def Obligations.BqResetClearsTheDelayLines : Prop :=
  ∀ s : State, ∃ t, exec .bqReset s = .next t ∧
    (∀ (ch : Channel) (st : Fin 9) (j : StateWord), (t.dly.get ch)[st].get j = 0) ∧
    { t with dly := s.dly } = s

/-- R71, R167: BQ.RDSTATE shows one delay word, a bypassed stage's too, in any mode: CH = 0 is the left channel, SK = 0 is s1. -/
def Obligations.RdstateShowsADelayWord : Prop :=
  ∀ (s : State) (ch : Channel) (st : Fin 9) (j : StateWord),
    exec (.bqRdstate ch (stageField st) j) s = .next { s with res0 := (s.dly.get ch)[st].get j } ∧
    s.dly.get .left = s.dly.left ∧ s.dly.get .right = s.dly.right ∧
    (∀ d : Delay, d.get .s1 = d.s1 ∧ d.get .s2 = d.s2)

/-! ### Whole-machine rules -/

/-- R30 to R38, R40: which commands write each state element; every other command leaves it as it was. -/
def Obligations.EachStateElementHasItsWriters : Prop :=
  ∀ (i : Instr) (s t : State), exec i s = .next t →
    (i ≠ .prepare → t.sr = s.sr ∧ t.maxblk = s.maxblk) ∧
    (i ≠ .prepare → (∀ o, i ≠ .oscSample o) → (∀ o, i ≠ .oscStop o) → t.phase = s.phase) ∧
    (i ≠ .prepare → (∀ o, i ≠ .oscSetfreq o) → (∀ o, i ≠ .oscStop o) → t.inc = s.inc) ∧
    (i ≠ .prepare → (∀ j, i ≠ .wtWrite j) → ∀ j, t.tbl.read j = s.tbl.read j) ∧
    ((∀ a k, i ≠ .cfWrite a k) → t.sh = s.sh) ∧
    ((∀ c n, i ≠ .cfSlope c n) → t.shslope = s.shslope) ∧
    (i ≠ .cfCommit → t.coef = s.coef ∧ t.byp = s.byp) ∧
    (i ≠ .prepare → (∀ ch, i ≠ .bqProc ch) → i ≠ .bqProc2 → i ≠ .bqReset → t.dly = s.dly)

/-- R29, R212, R224.2: the observation commands change nothing but RES0 and RES1 and, of a fault, the record; RES1 is
written by OSC.READ and BQ.PROC2 only. -/
def Obligations.ObservationChangesOnlyResults : Prop :=
  (∀ (i : Instr) (s t : State), exec i s = .next t →
    (∃ o, i = .oscStatus o) ∨ (∃ o, i = .oscRead o) ∨ (∃ j, i = .wtRead j) ∨ (∃ a k, i = .cfRead a k) ∨ i = .cfStat ∨
      (∃ ch a j, i = .bqRdstate ch a j) ∨ (∃ a k, i = .bqRdcoef a k) →
    { t with res0 := s.res0, res1 := s.res1, fault := s.fault, err := s.err, errcmd := s.errcmd } = s) ∧
  (∀ (i : Instr) (s t : State), exec i s = .next t → (∀ o, i ≠ .oscRead o) → i ≠ .bqProc2 → t.res1 = s.res1)

/-- R220: what asserting reset leaves, whatever the state was. Every TBLV flag is 0; that TBL, unspecified
there, then holds no entry is the model's representation (log entry 3). -/
def Obligations.ResetLeavesTheResetState : Prop :=
  ∀ (s : State) (rest : List HostEvent), s.pending = .reset :: rest →
    ∃ t, step s = .next t ∧
      t.mode = .unprep ∧ t.fault = false ∧ t.err = 0 ∧ t.errcmd = 0 ∧ t.arg0 = 0 ∧ t.arg1 = 0 ∧ t.res0 = 0 ∧
      t.res1 = 0 ∧ t.sr = 0 ∧ t.maxblk = 0 ∧
      (∀ o : Fin 128, t.phase[o] = 0 ∧ t.inc[o] = 0) ∧ (∀ i, t.tbl.read i = none) ∧
      (∀ st : Fin 9, t.sh[st] = ⟨0x3F800000, 0, 0, 0, 0⟩ ∧ t.coef[st] = ⟨0x3F800000, 0, 0, 0, 0⟩) ∧
      (∀ c : Chain, t.shslope.get c = 0) ∧ (∀ (c : Chain) (i : Fin 4), (t.byp.get c)[i] = true) ∧
      (∀ (ch : Channel) (st : Fin 9) (j : StateWord), (t.dly.get ch)[st].get j = 0) ∧
      t.statusWord = 0 ∧ t.cfStatWord = 0x000000FF ∧ t.cfgWord = s.cfgWord

/-- R41: the reset state satisfies the invariants, for every table length. -/
def Obligations.ResetSatisfiesTheInvariants : Prop :=
  State.reset.Inv ∧ ∀ len : TblLen, (State.resetOf len).Inv

/-- R41, R128, R203: every step from a state that satisfies the invariants gives one that does, whatever the host does. -/
def Obligations.EveryStepKeepsTheInvariants : Prop :=
  ∀ s t : State, s.Inv → step s = .next t → t.Inv

/-! ### Arithmetic (00_scope.md) -/

/-- R9: rounding, `roundMag`, is to nearest, ties to even (what is rounded: OperationsRoundTheExactResultOnce). A magnitude n/d (in units of 2^-149) of (2 - 2^-24) * 2^127 or more becomes
infinity; any other becomes a finite number that no other finite number is nearer to, and an even one where two are
equally near. -/
def Obligations.RoundingIsToNearestEven : Prop :=
  ∀ n d : Nat, 0 < d →
    (d * ((2 ^ 25 - 1) * 2 ^ 252) ≤ n → roundMag n d = 0x7F800000) ∧
    (n < d * ((2 ^ 25 - 1) * 2 ^ 252) →
      roundMag n d < 0x7F800000 ∧
      ∀ r' : Nat, r' < 0x7F800000 → r' ≠ roundMag n d →
        ((n : Int) - d * magOf (packSign false (roundMag n d))).natAbs ≤
          ((n : Int) - d * magOf (packSign false r')).natAbs ∧
        (((n : Int) - d * magOf (packSign false (roundMag n d))).natAbs =
            ((n : Int) - d * magOf (packSign false r')).natAbs → roundMag n d % 2 = 0))

/-- R9, R10: every NaN an operation returns is 0x7FC00000; a NaN operand gives one, and so do, of whatever signs and in
either order, infinity minus infinity (a sum of infinities of opposite signs, a difference of infinities of one sign), zero
times infinity, zero over zero and infinity over infinity. -/
def Obligations.ArithmeticNaNsAreCanonical : Prop :=
  (∀ a b : Word, isNaN a ∨ isNaN b →
    fadd a b = 0x7FC00000 ∧ fsub a b = 0x7FC00000 ∧ fmul a b = 0x7FC00000 ∧ fdiv a b = 0x7FC00000) ∧
  (∀ a b : Word, (isNaN (fadd a b) → fadd a b = 0x7FC00000) ∧ (isNaN (fsub a b) → fsub a b = 0x7FC00000) ∧
    (isNaN (fmul a b) → fmul a b = 0x7FC00000) ∧ (isNaN (fdiv a b) → fdiv a b = 0x7FC00000)) ∧
  (∀ a b : Word, isInf a → isInf b →
    (signBit a ≠ signBit b → fadd a b = 0x7FC00000) ∧ (signBit a = signBit b → fsub a b = 0x7FC00000) ∧
    fdiv a b = 0x7FC00000) ∧
  (∀ a b : Word, isZero a → isInf b → fmul a b = 0x7FC00000 ∧ fmul b a = 0x7FC00000) ∧
  (∀ a b : Word, isZero a → isZero b → fdiv a b = 0x7FC00000)

/-- R8, R9: the fields of a word and the value they encode; and for finite operands each operation is the exact sum, difference, product or quotient rounded once. The rounding
is the `roundMag` of which RoundingIsToNearestEven speaks, on the magnitude in units of 2^-149. The sign is that of the exact
sum or difference, and of a product or a quotient the exclusive-or of the operands' signs. An exact zero sum of operands of
opposite signs is +0 (a difference: of one sign), and of one sign (a difference: of opposite signs) the zero of the first
operand's sign. A finite nonzero value over a zero is a signed infinity. -/
def Obligations.OperationsRoundTheExactResultOnce : Prop :=
  (∀ w : Word, signBit w = w.getLsbD 31 ∧ expField w = (w.extractLsb' 23 8).toNat ∧
    fracField w = (w.extractLsb' 0 23).toNat) ∧
  (∀ (s : Bool) (r : Nat), r < 2 ^ 31 → (packSign s r).toNat = if s then 2 ^ 31 + r else r) ∧
  (∀ w : Word, isFinite w = true →
    magOf w = if expField w = 0 then fracField w else (2 ^ 23 + fracField w) * 2 ^ (expField w - 1)) ∧
  (∀ a b : Word, isFinite a = true → isFinite b = true →
    (valOf a + valOf b ≠ 0 →
      fadd a b = packSign (decide (valOf a + valOf b < 0)) (roundMag (valOf a + valOf b).natAbs 1)) ∧
    (valOf a + valOf b = 0 → signBit a ≠ signBit b → fadd a b = 0x00000000) ∧
    (valOf a + valOf b = 0 → signBit a = signBit b → fadd a b = if signBit a then 0x80000000 else 0x00000000) ∧
    (valOf a - valOf b ≠ 0 →
      fsub a b = packSign (decide (valOf a - valOf b < 0)) (roundMag (valOf a - valOf b).natAbs 1)) ∧
    (valOf a - valOf b = 0 → signBit a = signBit b → fsub a b = 0x00000000) ∧
    (valOf a - valOf b = 0 → signBit a ≠ signBit b → fsub a b = if signBit a then 0x80000000 else 0x00000000) ∧
    fmul a b = packSign (signBit a != signBit b) (roundMag (magOf a * magOf b) (2 ^ 149)) ∧
    (magOf b ≠ 0 → fdiv a b = packSign (signBit a != signBit b) (roundMag (magOf a * 2 ^ 149) (magOf b))) ∧
    (magOf a ≠ 0 → magOf b = 0 → fdiv a b = if signBit a = signBit b then 0x7F800000 else 0xFF800000))
end

