-- ==== Sys2Proof/Laws/Encoding.lean ====
section
/-! SUPPORT. Lemmas about command words: a match under a mask of high bits said in arithmetic, and the value of an encoded word. -/

namespace Sys2Proof

/-- Masking off the low `k` bits, as the masks of R73 do, in arithmetic. -/
theorem and_highMask (w : Word) {k : Nat} (hk : k ≤ 32) :
    (w &&& BitVec.ofNat 32 (2 ^ 32 - 2 ^ k)).toNat = w.toNat / 2 ^ k * 2 ^ k := by
  have hm : (BitVec.ofNat 32 (2 ^ 32 - 2 ^ k)).toNat = (2 ^ (32 - k) - 1) <<< k := by
    rw [BitVec.toNat_ofNat, Nat.mod_eq_of_lt (Nat.sub_lt (by norm_num) (by positivity)), Nat.shiftLeft_eq, Nat.sub_mul,
      ← pow_add, Nat.sub_add_cancel hk, one_mul]
  rw [BitVec.toNat_and, hm, ← Nat.shiftRight_eq_div_pow, ← Nat.shiftLeft_eq]
  apply Nat.eq_of_testBit_eq
  intro j
  rw [Nat.testBit_and, Nat.testBit_shiftLeft, Nat.testBit_shiftLeft, Nat.testBit_shiftRight, Nat.testBit_two_pow_sub_one]
  by_cases hj : k ≤ j
  · by_cases h32 : j < 32
    · simp [hj, show j - k < 32 - k by omega]
    · have : w.toNat.testBit j = false :=
        Nat.testBit_lt_two_pow (lt_of_lt_of_le w.isLt (Nat.pow_le_pow_right (by norm_num) (by omega)))
      simp [hj, this]
  · simp [hj]

/-- A word is selected by a pattern under a mask of its high bits when those bits agree. -/
theorem and_highMask_eq_iff (w p : Word) {k : Nat} (hk : k ≤ 32) :
    w &&& BitVec.ofNat 32 (2 ^ 32 - 2 ^ k) = p ↔ w.toNat / 2 ^ k * 2 ^ k = p.toNat := by
  rw [← BitVec.toNat_inj, and_highMask w hk]

/-- The value of a format T word. -/
theorem encodeT_toNat (opc : Byte) (i : Fin 4096) : (encodeT opc i).toNat = opc.toNat * 2 ^ 24 + i.val := by
  have h : (encodeT opc i).toNat = ((opc.toNat <<< 12 ||| 0) <<< 12) ||| i.val := by
    unfold encodeT
    rw [BitVec.toNat_append, BitVec.toNat_append]
    rfl
  rw [h, Nat.or_zero, ← Nat.shiftLeft_add_eq_or_of_lt i.isLt, Nat.shiftLeft_eq, Nat.shiftLeft_eq]
  ring

/-- Reading IDX back from a format T word. -/
theorem fieldIdx_encodeT (opc : Byte) (i : Fin 4096) : fieldIdx (encodeT opc i) = i := by
  apply Fin.ext
  show ((encodeT opc i).extractLsb' 0 12).toNat = i.val
  rw [BitVec.extractLsb'_toNat, encodeT_toNat, Nat.shiftRight_zero]
  omega

/-- A format T word under its mask is the row's pattern. -/
theorem encodeT_mask (opc : Byte) (i : Fin 4096) : encodeT opc i &&& 0xFFFFF000 = BitVec.ofNat 32 (opc.toNat * 2 ^ 24) := by
  refine (and_highMask_eq_iff _ _ (k := 12) (by norm_num)).2 ?_
  have := opc.isLt
  rw [encodeT_toNat, BitVec.toNat_ofNat]
  omega

end Sys2Proof
end

