-- ==== Sys2Proof/Laws/Float.lean ====
section
/-! SUPPORT. Lemmas about binary32 words and their rounding: how a word splits into its sign and its low 31 bits, that rounding
gives back every representable magnitude, and that the remainder of R12 needs no rounding. -/

namespace Sys2Proof.Machine

/-! ### The low 31 bits of a word -/

/-- The magnitude of the finite number whose low 31 bits are `r`, in units of 2^-149 (R8). -/
def magBits (r : Nat) : Nat :=
  if r / 2 ^ 23 = 0 then r else (2 ^ 23 + r % 2 ^ 23) * 2 ^ (r / 2 ^ 23 - 1)

/-- The low 31 bits of a word. -/
def lowBits (w : Word) : Nat := w.toNat % 2 ^ 31

theorem lowBits_lt (w : Word) : lowBits w < 2 ^ 31 := Nat.mod_lt _ (by norm_num)

theorem toNat_eq_sign_low (w : Word) : w.toNat = (if signBit w then 2 ^ 31 + lowBits w else lowBits w) := by
  have := w.isLt
  unfold signBit lowBits
  by_cases h : 2 ^ 31 ≤ w.toNat
  · rw [decide_eq_true h, if_pos rfl]; omega
  · rw [decide_eq_false h, if_neg Bool.false_ne_true]; omega

theorem packSign_self (w : Word) : packSign (signBit w) (lowBits w) = w := by
  apply BitVec.eq_of_toNat_eq
  have := w.isLt
  rw [packSign, ← toNat_eq_sign_low]
  simp

theorem packSign_toNat (s : Bool) {r : Nat} (h : r < 2 ^ 31) :
    (packSign s r).toNat = if s then 2 ^ 31 + r else r := by
  unfold packSign
  cases s <;> simp <;> omega

theorem signBit_packSign (s : Bool) {r : Nat} (h : r < 2 ^ 31) : signBit (packSign s r) = s := by
  unfold signBit
  rw [packSign_toNat s h]
  cases s <;> simp; omega

theorem lowBits_packSign (s : Bool) {r : Nat} (h : r < 2 ^ 31) : lowBits (packSign s r) = r := by
  unfold lowBits
  rw [packSign_toNat s h]
  cases s <;> simp <;> omega

theorem expField_eq (w : Word) : expField w = lowBits w / 2 ^ 23 := by
  unfold expField lowBits; omega

theorem fracField_eq (w : Word) : fracField w = lowBits w % 2 ^ 23 := by
  unfold fracField lowBits; omega

/-- A word is finite when its low 31 bits are below those of infinity. -/
theorem isFinite_iff (w : Word) : isFinite w = true ↔ lowBits w < infBits := by
  have := lowBits_lt w
  simp only [isFinite, expField_eq, infBits, decide_eq_true_eq]
  omega

theorem f32_of_finite {w : Word} (h : isFinite w = true) : f32 w = .fin (signBit w) (magBits (lowBits w)) := by
  have hl := (isFinite_iff w).1 h
  have h' : expField w ≠ 255 := by simpa [isFinite] using h
  rw [f32, if_neg h', expField_eq, fracField_eq, magBits]
  split
  · next h0 => rw [Nat.mod_eq_of_lt (by omega)]
  · rfl

theorem magOf_of_finite {w : Word} (h : isFinite w = true) : magOf w = magBits (lowBits w) := by
  simp [magOf, f32_of_finite h]

/-- A finite word's value is its sign and its magnitude. -/
theorem f32_eq_fin {w : Word} (h : isFinite w = true) : f32 w = .fin (signBit w) (magOf w) := by
  rw [f32_of_finite h, magOf_of_finite h]

theorem f32_packSign (s : Bool) {r : Nat} (h : r < infBits) : f32 (packSign s r) = .fin s (magBits r) := by
  have h31 : r < 2 ^ 31 := by unfold infBits at h; omega
  rw [f32_of_finite ((isFinite_iff _).2 (by rwa [lowBits_packSign s h31])), signBit_packSign s h31,
    lowBits_packSign s h31]

theorem isFinite_packSign (s : Bool) {r : Nat} (h : r < infBits) : isFinite (packSign s r) = true := by
  rw [isFinite_iff, lowBits_packSign s (by unfold infBits at h; omega)]; exact h

@[simp] theorem magBits_zero : magBits 0 = 0 := by decide

theorem magBits_eq_zero {r : Nat} : magBits r = 0 ↔ r = 0 := by
  unfold magBits
  split
  · rfl
  · next h =>
    have : 0 < (2 ^ 23 + r % 2 ^ 23) * 2 ^ (r / 2 ^ 23 - 1) := by positivity
    constructor
    · omega
    · rintro rfl; simp at h

/-! ### Rounding a representable magnitude -/

theorem roundDiv_mul {a d : Nat} (hd : 0 < d) : roundDiv (a * d) d = a := by
  simp [roundDiv, Nat.mul_div_cancel _ hd, hd]

/-- Rounding gives back every finite binary32 magnitude. -/
theorem roundMag_magBits {r d : Nat} (h : r < infBits) (hd : 0 < d) : roundMag (magBits r * d) d = r := by
  have hk : gridExp (magBits r * d) d = r / 2 ^ 23 - 1 := by
    rw [gridExp, Nat.mul_div_cancel _ hd, magBits]
    split
    · next h0 =>
      by_cases hr : r = 0
      · simp [hr]
      · have : r.log2 < 23 := (Nat.log2_lt hr).2 (by omega)
        omega
    · next h0 =>
      have : ((2 ^ 23 + r % 2 ^ 23) * 2 ^ (r / 2 ^ 23 - 1)).log2 = 23 + (r / 2 ^ 23 - 1) := by
        rw [Nat.log2_eq_iff (by positivity)]
        have h1 : r % 2 ^ 23 < 2 ^ 23 := Nat.mod_lt _ (by norm_num)
        constructor
        · rw [pow_add]; exact Nat.mul_le_mul_right _ (by omega)
        · rw [show 23 + (r / 2 ^ 23 - 1) + 1 = 24 + (r / 2 ^ 23 - 1) by omega, pow_add]
          exact Nat.mul_lt_mul_of_pos_right (by omega) (by positivity)
      omega
  have hv : magBits r * d = (if r / 2 ^ 23 = 0 then r else 2 ^ 23 + r % 2 ^ 23) * (d * 2 ^ (r / 2 ^ 23 - 1)) := by
    unfold magBits
    split
    · next h0 => rw [h0]; simp
    · ring
  rw [roundMag, hk, hv, roundDiv_mul (by positivity)]
  have : (r / 2 ^ 23 - 1) * 2 ^ 23 + (if r / 2 ^ 23 = 0 then r else 2 ^ 23 + r % 2 ^ 23) = r := by
    split <;> omega
  simp only [this]
  exact Nat.min_eq_left (le_of_lt h)

theorem roundMag_magBits_one {r : Nat} (h : r < infBits) : roundMag (magBits r) 1 = r := by
  simpa using roundMag_magBits h Nat.one_pos

/-- Rounding gives back the word of every finite binary32 number. -/
theorem roundWord_magBits (s : Bool) {r d : Nat} (h : r < infBits) (hd : 0 < d) :
    roundWord s (magBits r * d) d = packSign s r := by
  rw [roundWord, roundMag_magBits h hd]

/-- What 24 bits of precision can hold: `a * 2^k` with `a < 2^24`, up to the largest exponent, is a finite binary32
magnitude. -/
theorem magBits_surj {a k : Nat} (ha : a < 2 ^ 24) (hk : k ≤ 253) : ∃ r, r < infBits ∧ magBits r = a * 2 ^ k := by
  induction k generalizing a with
  | zero =>
    by_cases h : a < 2 ^ 23
    · exact ⟨a, by unfold infBits; omega, by rw [magBits, if_pos (Nat.div_eq_of_lt h)]; simp⟩
    · refine ⟨a, by unfold infBits; omega, ?_⟩
      rw [magBits, show a / 2 ^ 23 = 1 by omega, if_neg one_ne_zero]
      simp only [Nat.sub_self, pow_zero, mul_one]
      omega
  | succ k ih =>
    by_cases h : a < 2 ^ 23
    · obtain ⟨r, hr, e⟩ := ih (a := 2 * a) (by omega) (by omega)
      exact ⟨r, hr, by rw [e, pow_succ]; ring⟩
    · refine ⟨(k + 2) * 2 ^ 23 + (a - 2 ^ 23), by unfold infBits; omega, ?_⟩
      have h1 : ((k + 2) * 2 ^ 23 + (a - 2 ^ 23)) / 2 ^ 23 = k + 2 := by omega
      have h2 : ((k + 2) * 2 ^ 23 + (a - 2 ^ 23)) % 2 ^ 23 = a - 2 ^ 23 := by omega
      rw [magBits, h1, h2, if_neg (by omega), show 2 ^ 23 + (a - 2 ^ 23) = a by omega,
        show k + 2 - 1 = k + 1 by omega]

/-- Every finite binary32 magnitude has 24 bits of precision. -/
theorem magBits_form {r : Nat} (h : r < infBits) : ∃ a k, a < 2 ^ 24 ∧ k ≤ 253 ∧ magBits r = a * 2 ^ k := by
  unfold infBits at h
  unfold magBits
  split
  · exact ⟨r, 0, by omega, by omega, by simp⟩
  · exact ⟨_, _, by omega, by omega, rfl⟩

/-- The remainder of a finite binary32 magnitude modulo a natural number up to 2^24 is a finite binary32 magnitude: `wrapL`
needs no rounding (R12). -/
theorem magBits_mod {r n : Nat} (h : r < infBits) (hn : 0 < n) (hn' : n ≤ 2 ^ 24) :
    ∃ r', r' < infBits ∧ magBits r' = magBits r % (n * 2 ^ 149) := by
  obtain ⟨a, k, ha, hk, e⟩ := magBits_form h
  rw [e]
  by_cases hk1 : k ≤ 149
  · have : n * 2 ^ 149 = (n * 2 ^ (149 - k)) * 2 ^ k := by
      rw [mul_assoc, ← pow_add]; congr 2; omega
    rw [this, Nat.mul_mod_mul_right]
    exact magBits_surj (lt_of_le_of_lt (Nat.mod_le _ _) ha) hk
  · have : a * 2 ^ k = (a * 2 ^ (k - 149)) * 2 ^ 149 := by
      rw [mul_assoc, ← pow_add]; congr 2; omega
    rw [this, Nat.mul_mod_mul_right]
    exact magBits_surj (lt_of_lt_of_le (Nat.mod_lt _ hn) hn') (by omega)

/-- `wrapL` of a finite non-negative number: a finite positive number or +0, whose magnitude is the exact remainder (R12). -/
theorem wrapL_spec (len : TblLen) {w : Word} (hf : isFinite w = true) (hg : geZero w = true) :
    ∃ r, r < infBits ∧ wrapL len w = packSign false r ∧ magBits r = magOf w % (len.val * 2 ^ 149) := by
  obtain ⟨r, hr, e⟩ := magBits_mod ((isFinite_iff w).1 hf) len.pos (le_trans len.le (by norm_num))
  refine ⟨r, hr, ?_, by rw [e, magOf_of_finite hf]⟩
  rw [wrapL, if_pos (by simp [hf, hg]), magOf_of_finite hf, ← e, roundWord, roundMag_magBits_one hr]

/-! ### Comparisons of finite numbers -/

theorem gtZero_of_finite {w : Word} (h : isFinite w = true) :
    gtZero w = (!signBit w && decide (lowBits w ≠ 0)) := by
  simp [gtZero, f32_of_finite h, magBits_eq_zero]

theorem geZero_of_finite {w : Word} (h : isFinite w = true) :
    geZero w = (!signBit w || decide (lowBits w = 0)) := by
  simp [geZero, f32_of_finite h, magBits_eq_zero]

theorem neZero_of_finite {w : Word} (h : isFinite w = true) : neZero w = decide (lowBits w ≠ 0) := by
  simp [neZero, f32_of_finite h, magBits_eq_zero]

end Sys2Proof.Machine
end

