-- ==== Sys2Proof/Laws/State.lean ====
section
/-! SUPPORT. One lemma for each field of the state under each named update, all true by `rfl` (`recordFault` apart, whose
two cases agree on every field it does not name): later proofs cite them and unfold no record update. -/

namespace Sys2Proof.Machine

/-! ### `State.setRes0` -/

@[simp] theorem State.setRes0_mode (s : State) (v : Word) : (s.setRes0 v).mode = s.mode := rfl
@[simp] theorem State.setRes0_fault (s : State) (v : Word) : (s.setRes0 v).fault = s.fault := rfl
@[simp] theorem State.setRes0_err (s : State) (v : Word) : (s.setRes0 v).err = s.err := rfl
@[simp] theorem State.setRes0_errcmd (s : State) (v : Word) : (s.setRes0 v).errcmd = s.errcmd := rfl
@[simp] theorem State.setRes0_arg0 (s : State) (v : Word) : (s.setRes0 v).arg0 = s.arg0 := rfl
@[simp] theorem State.setRes0_arg1 (s : State) (v : Word) : (s.setRes0 v).arg1 = s.arg1 := rfl
@[simp] theorem State.setRes0_res0 (s : State) (v : Word) : (s.setRes0 v).res0 = v := rfl
@[simp] theorem State.setRes0_res1 (s : State) (v : Word) : (s.setRes0 v).res1 = s.res1 := rfl
@[simp] theorem State.setRes0_sr (s : State) (v : Word) : (s.setRes0 v).sr = s.sr := rfl
@[simp] theorem State.setRes0_maxblk (s : State) (v : Word) : (s.setRes0 v).maxblk = s.maxblk := rfl
@[simp] theorem State.setRes0_phase (s : State) (v : Word) : (s.setRes0 v).phase = s.phase := rfl
@[simp] theorem State.setRes0_inc (s : State) (v : Word) : (s.setRes0 v).inc = s.inc := rfl
@[simp] theorem State.setRes0_tbl (s : State) (v : Word) : (s.setRes0 v).tbl = s.tbl := rfl
@[simp] theorem State.setRes0_sh (s : State) (v : Word) : (s.setRes0 v).sh = s.sh := rfl
@[simp] theorem State.setRes0_shslope (s : State) (v : Word) : (s.setRes0 v).shslope = s.shslope := rfl
@[simp] theorem State.setRes0_coef (s : State) (v : Word) : (s.setRes0 v).coef = s.coef := rfl
@[simp] theorem State.setRes0_byp (s : State) (v : Word) : (s.setRes0 v).byp = s.byp := rfl
@[simp] theorem State.setRes0_dly (s : State) (v : Word) : (s.setRes0 v).dly = s.dly := rfl
@[simp] theorem State.setRes0_tblLen (s : State) (v : Word) : (s.setRes0 v).tblLen = s.tblLen := rfl
@[simp] theorem State.setRes0_pending (s : State) (v : Word) : (s.setRes0 v).pending = s.pending := rfl
@[simp] theorem State.setRes0_replies (s : State) (v : Word) : (s.setRes0 v).replies = s.replies := rfl

/-! ### `State.setRes1` -/

@[simp] theorem State.setRes1_mode (s : State) (v : Word) : (s.setRes1 v).mode = s.mode := rfl
@[simp] theorem State.setRes1_fault (s : State) (v : Word) : (s.setRes1 v).fault = s.fault := rfl
@[simp] theorem State.setRes1_err (s : State) (v : Word) : (s.setRes1 v).err = s.err := rfl
@[simp] theorem State.setRes1_errcmd (s : State) (v : Word) : (s.setRes1 v).errcmd = s.errcmd := rfl
@[simp] theorem State.setRes1_arg0 (s : State) (v : Word) : (s.setRes1 v).arg0 = s.arg0 := rfl
@[simp] theorem State.setRes1_arg1 (s : State) (v : Word) : (s.setRes1 v).arg1 = s.arg1 := rfl
@[simp] theorem State.setRes1_res0 (s : State) (v : Word) : (s.setRes1 v).res0 = s.res0 := rfl
@[simp] theorem State.setRes1_res1 (s : State) (v : Word) : (s.setRes1 v).res1 = v := rfl
@[simp] theorem State.setRes1_sr (s : State) (v : Word) : (s.setRes1 v).sr = s.sr := rfl
@[simp] theorem State.setRes1_maxblk (s : State) (v : Word) : (s.setRes1 v).maxblk = s.maxblk := rfl
@[simp] theorem State.setRes1_phase (s : State) (v : Word) : (s.setRes1 v).phase = s.phase := rfl
@[simp] theorem State.setRes1_inc (s : State) (v : Word) : (s.setRes1 v).inc = s.inc := rfl
@[simp] theorem State.setRes1_tbl (s : State) (v : Word) : (s.setRes1 v).tbl = s.tbl := rfl
@[simp] theorem State.setRes1_sh (s : State) (v : Word) : (s.setRes1 v).sh = s.sh := rfl
@[simp] theorem State.setRes1_shslope (s : State) (v : Word) : (s.setRes1 v).shslope = s.shslope := rfl
@[simp] theorem State.setRes1_coef (s : State) (v : Word) : (s.setRes1 v).coef = s.coef := rfl
@[simp] theorem State.setRes1_byp (s : State) (v : Word) : (s.setRes1 v).byp = s.byp := rfl
@[simp] theorem State.setRes1_dly (s : State) (v : Word) : (s.setRes1 v).dly = s.dly := rfl
@[simp] theorem State.setRes1_tblLen (s : State) (v : Word) : (s.setRes1 v).tblLen = s.tblLen := rfl
@[simp] theorem State.setRes1_pending (s : State) (v : Word) : (s.setRes1 v).pending = s.pending := rfl
@[simp] theorem State.setRes1_replies (s : State) (v : Word) : (s.setRes1 v).replies = s.replies := rfl

/-! ### `State.setPhase` -/

@[simp] theorem State.setPhase_mode (s : State) (o : Fin 128) (v : Word) : (s.setPhase o v).mode = s.mode := rfl
@[simp] theorem State.setPhase_fault (s : State) (o : Fin 128) (v : Word) : (s.setPhase o v).fault = s.fault := rfl
@[simp] theorem State.setPhase_err (s : State) (o : Fin 128) (v : Word) : (s.setPhase o v).err = s.err := rfl
@[simp] theorem State.setPhase_errcmd (s : State) (o : Fin 128) (v : Word) : (s.setPhase o v).errcmd = s.errcmd := rfl
@[simp] theorem State.setPhase_arg0 (s : State) (o : Fin 128) (v : Word) : (s.setPhase o v).arg0 = s.arg0 := rfl
@[simp] theorem State.setPhase_arg1 (s : State) (o : Fin 128) (v : Word) : (s.setPhase o v).arg1 = s.arg1 := rfl
@[simp] theorem State.setPhase_res0 (s : State) (o : Fin 128) (v : Word) : (s.setPhase o v).res0 = s.res0 := rfl
@[simp] theorem State.setPhase_res1 (s : State) (o : Fin 128) (v : Word) : (s.setPhase o v).res1 = s.res1 := rfl
@[simp] theorem State.setPhase_sr (s : State) (o : Fin 128) (v : Word) : (s.setPhase o v).sr = s.sr := rfl
@[simp] theorem State.setPhase_maxblk (s : State) (o : Fin 128) (v : Word) : (s.setPhase o v).maxblk = s.maxblk := rfl
@[simp] theorem State.setPhase_phase (s : State) (o : Fin 128) (v : Word) : (s.setPhase o v).phase = s.phase.set o v := rfl
@[simp] theorem State.setPhase_inc (s : State) (o : Fin 128) (v : Word) : (s.setPhase o v).inc = s.inc := rfl
@[simp] theorem State.setPhase_tbl (s : State) (o : Fin 128) (v : Word) : (s.setPhase o v).tbl = s.tbl := rfl
@[simp] theorem State.setPhase_sh (s : State) (o : Fin 128) (v : Word) : (s.setPhase o v).sh = s.sh := rfl
@[simp] theorem State.setPhase_shslope (s : State) (o : Fin 128) (v : Word) : (s.setPhase o v).shslope = s.shslope := rfl
@[simp] theorem State.setPhase_coef (s : State) (o : Fin 128) (v : Word) : (s.setPhase o v).coef = s.coef := rfl
@[simp] theorem State.setPhase_byp (s : State) (o : Fin 128) (v : Word) : (s.setPhase o v).byp = s.byp := rfl
@[simp] theorem State.setPhase_dly (s : State) (o : Fin 128) (v : Word) : (s.setPhase o v).dly = s.dly := rfl
@[simp] theorem State.setPhase_tblLen (s : State) (o : Fin 128) (v : Word) : (s.setPhase o v).tblLen = s.tblLen := rfl
@[simp] theorem State.setPhase_pending (s : State) (o : Fin 128) (v : Word) : (s.setPhase o v).pending = s.pending := rfl
@[simp] theorem State.setPhase_replies (s : State) (o : Fin 128) (v : Word) : (s.setPhase o v).replies = s.replies := rfl

/-! ### `State.setInc` -/

@[simp] theorem State.setInc_mode (s : State) (o : Fin 128) (v : Word) : (s.setInc o v).mode = s.mode := rfl
@[simp] theorem State.setInc_fault (s : State) (o : Fin 128) (v : Word) : (s.setInc o v).fault = s.fault := rfl
@[simp] theorem State.setInc_err (s : State) (o : Fin 128) (v : Word) : (s.setInc o v).err = s.err := rfl
@[simp] theorem State.setInc_errcmd (s : State) (o : Fin 128) (v : Word) : (s.setInc o v).errcmd = s.errcmd := rfl
@[simp] theorem State.setInc_arg0 (s : State) (o : Fin 128) (v : Word) : (s.setInc o v).arg0 = s.arg0 := rfl
@[simp] theorem State.setInc_arg1 (s : State) (o : Fin 128) (v : Word) : (s.setInc o v).arg1 = s.arg1 := rfl
@[simp] theorem State.setInc_res0 (s : State) (o : Fin 128) (v : Word) : (s.setInc o v).res0 = s.res0 := rfl
@[simp] theorem State.setInc_res1 (s : State) (o : Fin 128) (v : Word) : (s.setInc o v).res1 = s.res1 := rfl
@[simp] theorem State.setInc_sr (s : State) (o : Fin 128) (v : Word) : (s.setInc o v).sr = s.sr := rfl
@[simp] theorem State.setInc_maxblk (s : State) (o : Fin 128) (v : Word) : (s.setInc o v).maxblk = s.maxblk := rfl
@[simp] theorem State.setInc_phase (s : State) (o : Fin 128) (v : Word) : (s.setInc o v).phase = s.phase := rfl
@[simp] theorem State.setInc_inc (s : State) (o : Fin 128) (v : Word) : (s.setInc o v).inc = s.inc.set o v := rfl
@[simp] theorem State.setInc_tbl (s : State) (o : Fin 128) (v : Word) : (s.setInc o v).tbl = s.tbl := rfl
@[simp] theorem State.setInc_sh (s : State) (o : Fin 128) (v : Word) : (s.setInc o v).sh = s.sh := rfl
@[simp] theorem State.setInc_shslope (s : State) (o : Fin 128) (v : Word) : (s.setInc o v).shslope = s.shslope := rfl
@[simp] theorem State.setInc_coef (s : State) (o : Fin 128) (v : Word) : (s.setInc o v).coef = s.coef := rfl
@[simp] theorem State.setInc_byp (s : State) (o : Fin 128) (v : Word) : (s.setInc o v).byp = s.byp := rfl
@[simp] theorem State.setInc_dly (s : State) (o : Fin 128) (v : Word) : (s.setInc o v).dly = s.dly := rfl
@[simp] theorem State.setInc_tblLen (s : State) (o : Fin 128) (v : Word) : (s.setInc o v).tblLen = s.tblLen := rfl
@[simp] theorem State.setInc_pending (s : State) (o : Fin 128) (v : Word) : (s.setInc o v).pending = s.pending := rfl
@[simp] theorem State.setInc_replies (s : State) (o : Fin 128) (v : Word) : (s.setInc o v).replies = s.replies := rfl

/-! ### `State.writeTable` -/

@[simp] theorem State.writeTable_mode (s : State) (i : Nat) (v : Word) : (s.writeTable i v).mode = s.mode := rfl
@[simp] theorem State.writeTable_fault (s : State) (i : Nat) (v : Word) : (s.writeTable i v).fault = s.fault := rfl
@[simp] theorem State.writeTable_err (s : State) (i : Nat) (v : Word) : (s.writeTable i v).err = s.err := rfl
@[simp] theorem State.writeTable_errcmd (s : State) (i : Nat) (v : Word) : (s.writeTable i v).errcmd = s.errcmd := rfl
@[simp] theorem State.writeTable_arg0 (s : State) (i : Nat) (v : Word) : (s.writeTable i v).arg0 = s.arg0 := rfl
@[simp] theorem State.writeTable_arg1 (s : State) (i : Nat) (v : Word) : (s.writeTable i v).arg1 = s.arg1 := rfl
@[simp] theorem State.writeTable_res0 (s : State) (i : Nat) (v : Word) : (s.writeTable i v).res0 = s.res0 := rfl
@[simp] theorem State.writeTable_res1 (s : State) (i : Nat) (v : Word) : (s.writeTable i v).res1 = s.res1 := rfl
@[simp] theorem State.writeTable_sr (s : State) (i : Nat) (v : Word) : (s.writeTable i v).sr = s.sr := rfl
@[simp] theorem State.writeTable_maxblk (s : State) (i : Nat) (v : Word) : (s.writeTable i v).maxblk = s.maxblk := rfl
@[simp] theorem State.writeTable_phase (s : State) (i : Nat) (v : Word) : (s.writeTable i v).phase = s.phase := rfl
@[simp] theorem State.writeTable_inc (s : State) (i : Nat) (v : Word) : (s.writeTable i v).inc = s.inc := rfl
@[simp] theorem State.writeTable_tbl (s : State) (i : Nat) (v : Word) : (s.writeTable i v).tbl = s.tbl.write i v := rfl
@[simp] theorem State.writeTable_sh (s : State) (i : Nat) (v : Word) : (s.writeTable i v).sh = s.sh := rfl
@[simp] theorem State.writeTable_shslope (s : State) (i : Nat) (v : Word) : (s.writeTable i v).shslope = s.shslope := rfl
@[simp] theorem State.writeTable_coef (s : State) (i : Nat) (v : Word) : (s.writeTable i v).coef = s.coef := rfl
@[simp] theorem State.writeTable_byp (s : State) (i : Nat) (v : Word) : (s.writeTable i v).byp = s.byp := rfl
@[simp] theorem State.writeTable_dly (s : State) (i : Nat) (v : Word) : (s.writeTable i v).dly = s.dly := rfl
@[simp] theorem State.writeTable_tblLen (s : State) (i : Nat) (v : Word) : (s.writeTable i v).tblLen = s.tblLen := rfl
@[simp] theorem State.writeTable_pending (s : State) (i : Nat) (v : Word) : (s.writeTable i v).pending = s.pending := rfl
@[simp] theorem State.writeTable_replies (s : State) (i : Nat) (v : Word) : (s.writeTable i v).replies = s.replies := rfl

/-! ### `State.setShadow` -/

@[simp] theorem State.setShadow_mode (s : State) (st : Fin 9) (k : Coef) (v : Word) : (s.setShadow st k v).mode = s.mode := rfl
@[simp] theorem State.setShadow_fault (s : State) (st : Fin 9) (k : Coef) (v : Word) : (s.setShadow st k v).fault = s.fault := rfl
@[simp] theorem State.setShadow_err (s : State) (st : Fin 9) (k : Coef) (v : Word) : (s.setShadow st k v).err = s.err := rfl
@[simp] theorem State.setShadow_errcmd (s : State) (st : Fin 9) (k : Coef) (v : Word) : (s.setShadow st k v).errcmd = s.errcmd := rfl
@[simp] theorem State.setShadow_arg0 (s : State) (st : Fin 9) (k : Coef) (v : Word) : (s.setShadow st k v).arg0 = s.arg0 := rfl
@[simp] theorem State.setShadow_arg1 (s : State) (st : Fin 9) (k : Coef) (v : Word) : (s.setShadow st k v).arg1 = s.arg1 := rfl
@[simp] theorem State.setShadow_res0 (s : State) (st : Fin 9) (k : Coef) (v : Word) : (s.setShadow st k v).res0 = s.res0 := rfl
@[simp] theorem State.setShadow_res1 (s : State) (st : Fin 9) (k : Coef) (v : Word) : (s.setShadow st k v).res1 = s.res1 := rfl
@[simp] theorem State.setShadow_sr (s : State) (st : Fin 9) (k : Coef) (v : Word) : (s.setShadow st k v).sr = s.sr := rfl
@[simp] theorem State.setShadow_maxblk (s : State) (st : Fin 9) (k : Coef) (v : Word) : (s.setShadow st k v).maxblk = s.maxblk := rfl
@[simp] theorem State.setShadow_phase (s : State) (st : Fin 9) (k : Coef) (v : Word) : (s.setShadow st k v).phase = s.phase := rfl
@[simp] theorem State.setShadow_inc (s : State) (st : Fin 9) (k : Coef) (v : Word) : (s.setShadow st k v).inc = s.inc := rfl
@[simp] theorem State.setShadow_tbl (s : State) (st : Fin 9) (k : Coef) (v : Word) : (s.setShadow st k v).tbl = s.tbl := rfl
@[simp] theorem State.setShadow_sh (s : State) (st : Fin 9) (k : Coef) (v : Word) : (s.setShadow st k v).sh = s.sh.set st (s.sh[st].set k v) := rfl
@[simp] theorem State.setShadow_shslope (s : State) (st : Fin 9) (k : Coef) (v : Word) : (s.setShadow st k v).shslope = s.shslope := rfl
@[simp] theorem State.setShadow_coef (s : State) (st : Fin 9) (k : Coef) (v : Word) : (s.setShadow st k v).coef = s.coef := rfl
@[simp] theorem State.setShadow_byp (s : State) (st : Fin 9) (k : Coef) (v : Word) : (s.setShadow st k v).byp = s.byp := rfl
@[simp] theorem State.setShadow_dly (s : State) (st : Fin 9) (k : Coef) (v : Word) : (s.setShadow st k v).dly = s.dly := rfl
@[simp] theorem State.setShadow_tblLen (s : State) (st : Fin 9) (k : Coef) (v : Word) : (s.setShadow st k v).tblLen = s.tblLen := rfl
@[simp] theorem State.setShadow_pending (s : State) (st : Fin 9) (k : Coef) (v : Word) : (s.setShadow st k v).pending = s.pending := rfl
@[simp] theorem State.setShadow_replies (s : State) (st : Fin 9) (k : Coef) (v : Word) : (s.setShadow st k v).replies = s.replies := rfl

/-! ### `State.setSlope` -/

@[simp] theorem State.setSlope_mode (s : State) (c : Chain) (n : BitVec 2) : (s.setSlope c n).mode = s.mode := rfl
@[simp] theorem State.setSlope_fault (s : State) (c : Chain) (n : BitVec 2) : (s.setSlope c n).fault = s.fault := rfl
@[simp] theorem State.setSlope_err (s : State) (c : Chain) (n : BitVec 2) : (s.setSlope c n).err = s.err := rfl
@[simp] theorem State.setSlope_errcmd (s : State) (c : Chain) (n : BitVec 2) : (s.setSlope c n).errcmd = s.errcmd := rfl
@[simp] theorem State.setSlope_arg0 (s : State) (c : Chain) (n : BitVec 2) : (s.setSlope c n).arg0 = s.arg0 := rfl
@[simp] theorem State.setSlope_arg1 (s : State) (c : Chain) (n : BitVec 2) : (s.setSlope c n).arg1 = s.arg1 := rfl
@[simp] theorem State.setSlope_res0 (s : State) (c : Chain) (n : BitVec 2) : (s.setSlope c n).res0 = s.res0 := rfl
@[simp] theorem State.setSlope_res1 (s : State) (c : Chain) (n : BitVec 2) : (s.setSlope c n).res1 = s.res1 := rfl
@[simp] theorem State.setSlope_sr (s : State) (c : Chain) (n : BitVec 2) : (s.setSlope c n).sr = s.sr := rfl
@[simp] theorem State.setSlope_maxblk (s : State) (c : Chain) (n : BitVec 2) : (s.setSlope c n).maxblk = s.maxblk := rfl
@[simp] theorem State.setSlope_phase (s : State) (c : Chain) (n : BitVec 2) : (s.setSlope c n).phase = s.phase := rfl
@[simp] theorem State.setSlope_inc (s : State) (c : Chain) (n : BitVec 2) : (s.setSlope c n).inc = s.inc := rfl
@[simp] theorem State.setSlope_tbl (s : State) (c : Chain) (n : BitVec 2) : (s.setSlope c n).tbl = s.tbl := rfl
@[simp] theorem State.setSlope_sh (s : State) (c : Chain) (n : BitVec 2) : (s.setSlope c n).sh = s.sh := rfl
@[simp] theorem State.setSlope_shslope (s : State) (c : Chain) (n : BitVec 2) : (s.setSlope c n).shslope = s.shslope.set c n := rfl
@[simp] theorem State.setSlope_coef (s : State) (c : Chain) (n : BitVec 2) : (s.setSlope c n).coef = s.coef := rfl
@[simp] theorem State.setSlope_byp (s : State) (c : Chain) (n : BitVec 2) : (s.setSlope c n).byp = s.byp := rfl
@[simp] theorem State.setSlope_dly (s : State) (c : Chain) (n : BitVec 2) : (s.setSlope c n).dly = s.dly := rfl
@[simp] theorem State.setSlope_tblLen (s : State) (c : Chain) (n : BitVec 2) : (s.setSlope c n).tblLen = s.tblLen := rfl
@[simp] theorem State.setSlope_pending (s : State) (c : Chain) (n : BitVec 2) : (s.setSlope c n).pending = s.pending := rfl
@[simp] theorem State.setSlope_replies (s : State) (c : Chain) (n : BitVec 2) : (s.setSlope c n).replies = s.replies := rfl

/-! ### `State.loadStage` -/

@[simp] theorem State.loadStage_mode (s : State) (st : Fin 9) : (s.loadStage st).mode = s.mode := rfl
@[simp] theorem State.loadStage_fault (s : State) (st : Fin 9) : (s.loadStage st).fault = s.fault := rfl
@[simp] theorem State.loadStage_err (s : State) (st : Fin 9) : (s.loadStage st).err = s.err := rfl
@[simp] theorem State.loadStage_errcmd (s : State) (st : Fin 9) : (s.loadStage st).errcmd = s.errcmd := rfl
@[simp] theorem State.loadStage_arg0 (s : State) (st : Fin 9) : (s.loadStage st).arg0 = s.arg0 := rfl
@[simp] theorem State.loadStage_arg1 (s : State) (st : Fin 9) : (s.loadStage st).arg1 = s.arg1 := rfl
@[simp] theorem State.loadStage_res0 (s : State) (st : Fin 9) : (s.loadStage st).res0 = s.res0 := rfl
@[simp] theorem State.loadStage_res1 (s : State) (st : Fin 9) : (s.loadStage st).res1 = s.res1 := rfl
@[simp] theorem State.loadStage_sr (s : State) (st : Fin 9) : (s.loadStage st).sr = s.sr := rfl
@[simp] theorem State.loadStage_maxblk (s : State) (st : Fin 9) : (s.loadStage st).maxblk = s.maxblk := rfl
@[simp] theorem State.loadStage_phase (s : State) (st : Fin 9) : (s.loadStage st).phase = s.phase := rfl
@[simp] theorem State.loadStage_inc (s : State) (st : Fin 9) : (s.loadStage st).inc = s.inc := rfl
@[simp] theorem State.loadStage_tbl (s : State) (st : Fin 9) : (s.loadStage st).tbl = s.tbl := rfl
@[simp] theorem State.loadStage_sh (s : State) (st : Fin 9) : (s.loadStage st).sh = s.sh := rfl
@[simp] theorem State.loadStage_shslope (s : State) (st : Fin 9) : (s.loadStage st).shslope = s.shslope := rfl
@[simp] theorem State.loadStage_coef (s : State) (st : Fin 9) : (s.loadStage st).coef = s.coef.set st s.sh[st] := rfl
@[simp] theorem State.loadStage_byp (s : State) (st : Fin 9) : (s.loadStage st).byp = s.byp := rfl
@[simp] theorem State.loadStage_dly (s : State) (st : Fin 9) : (s.loadStage st).dly = s.dly := rfl
@[simp] theorem State.loadStage_tblLen (s : State) (st : Fin 9) : (s.loadStage st).tblLen = s.tblLen := rfl
@[simp] theorem State.loadStage_pending (s : State) (st : Fin 9) : (s.loadStage st).pending = s.pending := rfl
@[simp] theorem State.loadStage_replies (s : State) (st : Fin 9) : (s.loadStage st).replies = s.replies := rfl

/-! ### `State.bypassChain` -/

@[simp] theorem State.bypassChain_mode (s : State) (c : Chain) : (s.bypassChain c).mode = s.mode := rfl
@[simp] theorem State.bypassChain_fault (s : State) (c : Chain) : (s.bypassChain c).fault = s.fault := rfl
@[simp] theorem State.bypassChain_err (s : State) (c : Chain) : (s.bypassChain c).err = s.err := rfl
@[simp] theorem State.bypassChain_errcmd (s : State) (c : Chain) : (s.bypassChain c).errcmd = s.errcmd := rfl
@[simp] theorem State.bypassChain_arg0 (s : State) (c : Chain) : (s.bypassChain c).arg0 = s.arg0 := rfl
@[simp] theorem State.bypassChain_arg1 (s : State) (c : Chain) : (s.bypassChain c).arg1 = s.arg1 := rfl
@[simp] theorem State.bypassChain_res0 (s : State) (c : Chain) : (s.bypassChain c).res0 = s.res0 := rfl
@[simp] theorem State.bypassChain_res1 (s : State) (c : Chain) : (s.bypassChain c).res1 = s.res1 := rfl
@[simp] theorem State.bypassChain_sr (s : State) (c : Chain) : (s.bypassChain c).sr = s.sr := rfl
@[simp] theorem State.bypassChain_maxblk (s : State) (c : Chain) : (s.bypassChain c).maxblk = s.maxblk := rfl
@[simp] theorem State.bypassChain_phase (s : State) (c : Chain) : (s.bypassChain c).phase = s.phase := rfl
@[simp] theorem State.bypassChain_inc (s : State) (c : Chain) : (s.bypassChain c).inc = s.inc := rfl
@[simp] theorem State.bypassChain_tbl (s : State) (c : Chain) : (s.bypassChain c).tbl = s.tbl := rfl
@[simp] theorem State.bypassChain_sh (s : State) (c : Chain) : (s.bypassChain c).sh = s.sh := rfl
@[simp] theorem State.bypassChain_shslope (s : State) (c : Chain) : (s.bypassChain c).shslope = s.shslope := rfl
@[simp] theorem State.bypassChain_coef (s : State) (c : Chain) : (s.bypassChain c).coef = s.coef := rfl
@[simp] theorem State.bypassChain_byp (s : State) (c : Chain) : (s.bypassChain c).byp = s.byp.set c (Vector.replicate 4 true) := rfl
@[simp] theorem State.bypassChain_dly (s : State) (c : Chain) : (s.bypassChain c).dly = s.dly := rfl
@[simp] theorem State.bypassChain_tblLen (s : State) (c : Chain) : (s.bypassChain c).tblLen = s.tblLen := rfl
@[simp] theorem State.bypassChain_pending (s : State) (c : Chain) : (s.bypassChain c).pending = s.pending := rfl
@[simp] theorem State.bypassChain_replies (s : State) (c : Chain) : (s.bypassChain c).replies = s.replies := rfl

/-! ### `State.activate` -/

@[simp] theorem State.activate_mode (s : State) (c : Chain) (i : Fin 4) : (s.activate c i).mode = s.mode := rfl
@[simp] theorem State.activate_fault (s : State) (c : Chain) (i : Fin 4) : (s.activate c i).fault = s.fault := rfl
@[simp] theorem State.activate_err (s : State) (c : Chain) (i : Fin 4) : (s.activate c i).err = s.err := rfl
@[simp] theorem State.activate_errcmd (s : State) (c : Chain) (i : Fin 4) : (s.activate c i).errcmd = s.errcmd := rfl
@[simp] theorem State.activate_arg0 (s : State) (c : Chain) (i : Fin 4) : (s.activate c i).arg0 = s.arg0 := rfl
@[simp] theorem State.activate_arg1 (s : State) (c : Chain) (i : Fin 4) : (s.activate c i).arg1 = s.arg1 := rfl
@[simp] theorem State.activate_res0 (s : State) (c : Chain) (i : Fin 4) : (s.activate c i).res0 = s.res0 := rfl
@[simp] theorem State.activate_res1 (s : State) (c : Chain) (i : Fin 4) : (s.activate c i).res1 = s.res1 := rfl
@[simp] theorem State.activate_sr (s : State) (c : Chain) (i : Fin 4) : (s.activate c i).sr = s.sr := rfl
@[simp] theorem State.activate_maxblk (s : State) (c : Chain) (i : Fin 4) : (s.activate c i).maxblk = s.maxblk := rfl
@[simp] theorem State.activate_phase (s : State) (c : Chain) (i : Fin 4) : (s.activate c i).phase = s.phase := rfl
@[simp] theorem State.activate_inc (s : State) (c : Chain) (i : Fin 4) : (s.activate c i).inc = s.inc := rfl
@[simp] theorem State.activate_tbl (s : State) (c : Chain) (i : Fin 4) : (s.activate c i).tbl = s.tbl := rfl
@[simp] theorem State.activate_sh (s : State) (c : Chain) (i : Fin 4) : (s.activate c i).sh = s.sh := rfl
@[simp] theorem State.activate_shslope (s : State) (c : Chain) (i : Fin 4) : (s.activate c i).shslope = s.shslope := rfl
@[simp] theorem State.activate_coef (s : State) (c : Chain) (i : Fin 4) : (s.activate c i).coef = s.coef := rfl
@[simp] theorem State.activate_byp (s : State) (c : Chain) (i : Fin 4) : (s.activate c i).byp = s.byp.set c ((s.byp.get c).set i false) := rfl
@[simp] theorem State.activate_dly (s : State) (c : Chain) (i : Fin 4) : (s.activate c i).dly = s.dly := rfl
@[simp] theorem State.activate_tblLen (s : State) (c : Chain) (i : Fin 4) : (s.activate c i).tblLen = s.tblLen := rfl
@[simp] theorem State.activate_pending (s : State) (c : Chain) (i : Fin 4) : (s.activate c i).pending = s.pending := rfl
@[simp] theorem State.activate_replies (s : State) (c : Chain) (i : Fin 4) : (s.activate c i).replies = s.replies := rfl

/-! ### `State.setDelays` -/

@[simp] theorem State.setDelays_mode (s : State) (ch : Channel) (d : Vector Delay 9) : (s.setDelays ch d).mode = s.mode := rfl
@[simp] theorem State.setDelays_fault (s : State) (ch : Channel) (d : Vector Delay 9) : (s.setDelays ch d).fault = s.fault := rfl
@[simp] theorem State.setDelays_err (s : State) (ch : Channel) (d : Vector Delay 9) : (s.setDelays ch d).err = s.err := rfl
@[simp] theorem State.setDelays_errcmd (s : State) (ch : Channel) (d : Vector Delay 9) : (s.setDelays ch d).errcmd = s.errcmd := rfl
@[simp] theorem State.setDelays_arg0 (s : State) (ch : Channel) (d : Vector Delay 9) : (s.setDelays ch d).arg0 = s.arg0 := rfl
@[simp] theorem State.setDelays_arg1 (s : State) (ch : Channel) (d : Vector Delay 9) : (s.setDelays ch d).arg1 = s.arg1 := rfl
@[simp] theorem State.setDelays_res0 (s : State) (ch : Channel) (d : Vector Delay 9) : (s.setDelays ch d).res0 = s.res0 := rfl
@[simp] theorem State.setDelays_res1 (s : State) (ch : Channel) (d : Vector Delay 9) : (s.setDelays ch d).res1 = s.res1 := rfl
@[simp] theorem State.setDelays_sr (s : State) (ch : Channel) (d : Vector Delay 9) : (s.setDelays ch d).sr = s.sr := rfl
@[simp] theorem State.setDelays_maxblk (s : State) (ch : Channel) (d : Vector Delay 9) : (s.setDelays ch d).maxblk = s.maxblk := rfl
@[simp] theorem State.setDelays_phase (s : State) (ch : Channel) (d : Vector Delay 9) : (s.setDelays ch d).phase = s.phase := rfl
@[simp] theorem State.setDelays_inc (s : State) (ch : Channel) (d : Vector Delay 9) : (s.setDelays ch d).inc = s.inc := rfl
@[simp] theorem State.setDelays_tbl (s : State) (ch : Channel) (d : Vector Delay 9) : (s.setDelays ch d).tbl = s.tbl := rfl
@[simp] theorem State.setDelays_sh (s : State) (ch : Channel) (d : Vector Delay 9) : (s.setDelays ch d).sh = s.sh := rfl
@[simp] theorem State.setDelays_shslope (s : State) (ch : Channel) (d : Vector Delay 9) : (s.setDelays ch d).shslope = s.shslope := rfl
@[simp] theorem State.setDelays_coef (s : State) (ch : Channel) (d : Vector Delay 9) : (s.setDelays ch d).coef = s.coef := rfl
@[simp] theorem State.setDelays_byp (s : State) (ch : Channel) (d : Vector Delay 9) : (s.setDelays ch d).byp = s.byp := rfl
@[simp] theorem State.setDelays_dly (s : State) (ch : Channel) (d : Vector Delay 9) : (s.setDelays ch d).dly = s.dly.set ch d := rfl
@[simp] theorem State.setDelays_tblLen (s : State) (ch : Channel) (d : Vector Delay 9) : (s.setDelays ch d).tblLen = s.tblLen := rfl
@[simp] theorem State.setDelays_pending (s : State) (ch : Channel) (d : Vector Delay 9) : (s.setDelays ch d).pending = s.pending := rfl
@[simp] theorem State.setDelays_replies (s : State) (ch : Channel) (d : Vector Delay 9) : (s.setDelays ch d).replies = s.replies := rfl

/-! ### `State.clearDelays` -/

@[simp] theorem State.clearDelays_mode (s : State) : (s.clearDelays).mode = s.mode := rfl
@[simp] theorem State.clearDelays_fault (s : State) : (s.clearDelays).fault = s.fault := rfl
@[simp] theorem State.clearDelays_err (s : State) : (s.clearDelays).err = s.err := rfl
@[simp] theorem State.clearDelays_errcmd (s : State) : (s.clearDelays).errcmd = s.errcmd := rfl
@[simp] theorem State.clearDelays_arg0 (s : State) : (s.clearDelays).arg0 = s.arg0 := rfl
@[simp] theorem State.clearDelays_arg1 (s : State) : (s.clearDelays).arg1 = s.arg1 := rfl
@[simp] theorem State.clearDelays_res0 (s : State) : (s.clearDelays).res0 = s.res0 := rfl
@[simp] theorem State.clearDelays_res1 (s : State) : (s.clearDelays).res1 = s.res1 := rfl
@[simp] theorem State.clearDelays_sr (s : State) : (s.clearDelays).sr = s.sr := rfl
@[simp] theorem State.clearDelays_maxblk (s : State) : (s.clearDelays).maxblk = s.maxblk := rfl
@[simp] theorem State.clearDelays_phase (s : State) : (s.clearDelays).phase = s.phase := rfl
@[simp] theorem State.clearDelays_inc (s : State) : (s.clearDelays).inc = s.inc := rfl
@[simp] theorem State.clearDelays_tbl (s : State) : (s.clearDelays).tbl = s.tbl := rfl
@[simp] theorem State.clearDelays_sh (s : State) : (s.clearDelays).sh = s.sh := rfl
@[simp] theorem State.clearDelays_shslope (s : State) : (s.clearDelays).shslope = s.shslope := rfl
@[simp] theorem State.clearDelays_coef (s : State) : (s.clearDelays).coef = s.coef := rfl
@[simp] theorem State.clearDelays_byp (s : State) : (s.clearDelays).byp = s.byp := rfl
@[simp] theorem State.clearDelays_dly (s : State) : (s.clearDelays).dly = ⟨Vector.replicate 9 Delay.zero, Vector.replicate 9 Delay.zero⟩ := rfl
@[simp] theorem State.clearDelays_tblLen (s : State) : (s.clearDelays).tblLen = s.tblLen := rfl
@[simp] theorem State.clearDelays_pending (s : State) : (s.clearDelays).pending = s.pending := rfl
@[simp] theorem State.clearDelays_replies (s : State) : (s.clearDelays).replies = s.replies := rfl

/-! ### `State.clearOscillators` -/

@[simp] theorem State.clearOscillators_mode (s : State) : (s.clearOscillators).mode = s.mode := rfl
@[simp] theorem State.clearOscillators_fault (s : State) : (s.clearOscillators).fault = s.fault := rfl
@[simp] theorem State.clearOscillators_err (s : State) : (s.clearOscillators).err = s.err := rfl
@[simp] theorem State.clearOscillators_errcmd (s : State) : (s.clearOscillators).errcmd = s.errcmd := rfl
@[simp] theorem State.clearOscillators_arg0 (s : State) : (s.clearOscillators).arg0 = s.arg0 := rfl
@[simp] theorem State.clearOscillators_arg1 (s : State) : (s.clearOscillators).arg1 = s.arg1 := rfl
@[simp] theorem State.clearOscillators_res0 (s : State) : (s.clearOscillators).res0 = s.res0 := rfl
@[simp] theorem State.clearOscillators_res1 (s : State) : (s.clearOscillators).res1 = s.res1 := rfl
@[simp] theorem State.clearOscillators_sr (s : State) : (s.clearOscillators).sr = s.sr := rfl
@[simp] theorem State.clearOscillators_maxblk (s : State) : (s.clearOscillators).maxblk = s.maxblk := rfl
@[simp] theorem State.clearOscillators_phase (s : State) : (s.clearOscillators).phase = Vector.replicate 128 0 := rfl
@[simp] theorem State.clearOscillators_inc (s : State) : (s.clearOscillators).inc = Vector.replicate 128 0 := rfl
@[simp] theorem State.clearOscillators_tbl (s : State) : (s.clearOscillators).tbl = s.tbl := rfl
@[simp] theorem State.clearOscillators_sh (s : State) : (s.clearOscillators).sh = s.sh := rfl
@[simp] theorem State.clearOscillators_shslope (s : State) : (s.clearOscillators).shslope = s.shslope := rfl
@[simp] theorem State.clearOscillators_coef (s : State) : (s.clearOscillators).coef = s.coef := rfl
@[simp] theorem State.clearOscillators_byp (s : State) : (s.clearOscillators).byp = s.byp := rfl
@[simp] theorem State.clearOscillators_dly (s : State) : (s.clearOscillators).dly = s.dly := rfl
@[simp] theorem State.clearOscillators_tblLen (s : State) : (s.clearOscillators).tblLen = s.tblLen := rfl
@[simp] theorem State.clearOscillators_pending (s : State) : (s.clearOscillators).pending = s.pending := rfl
@[simp] theorem State.clearOscillators_replies (s : State) : (s.clearOscillators).replies = s.replies := rfl

/-! ### `State.clearTable` -/

@[simp] theorem State.clearTable_mode (s : State) : (s.clearTable).mode = s.mode := rfl
@[simp] theorem State.clearTable_fault (s : State) : (s.clearTable).fault = s.fault := rfl
@[simp] theorem State.clearTable_err (s : State) : (s.clearTable).err = s.err := rfl
@[simp] theorem State.clearTable_errcmd (s : State) : (s.clearTable).errcmd = s.errcmd := rfl
@[simp] theorem State.clearTable_arg0 (s : State) : (s.clearTable).arg0 = s.arg0 := rfl
@[simp] theorem State.clearTable_arg1 (s : State) : (s.clearTable).arg1 = s.arg1 := rfl
@[simp] theorem State.clearTable_res0 (s : State) : (s.clearTable).res0 = s.res0 := rfl
@[simp] theorem State.clearTable_res1 (s : State) : (s.clearTable).res1 = s.res1 := rfl
@[simp] theorem State.clearTable_sr (s : State) : (s.clearTable).sr = s.sr := rfl
@[simp] theorem State.clearTable_maxblk (s : State) : (s.clearTable).maxblk = s.maxblk := rfl
@[simp] theorem State.clearTable_phase (s : State) : (s.clearTable).phase = s.phase := rfl
@[simp] theorem State.clearTable_inc (s : State) : (s.clearTable).inc = s.inc := rfl
@[simp] theorem State.clearTable_tbl (s : State) : (s.clearTable).tbl = Memory.empty := rfl
@[simp] theorem State.clearTable_sh (s : State) : (s.clearTable).sh = s.sh := rfl
@[simp] theorem State.clearTable_shslope (s : State) : (s.clearTable).shslope = s.shslope := rfl
@[simp] theorem State.clearTable_coef (s : State) : (s.clearTable).coef = s.coef := rfl
@[simp] theorem State.clearTable_byp (s : State) : (s.clearTable).byp = s.byp := rfl
@[simp] theorem State.clearTable_dly (s : State) : (s.clearTable).dly = s.dly := rfl
@[simp] theorem State.clearTable_tblLen (s : State) : (s.clearTable).tblLen = s.tblLen := rfl
@[simp] theorem State.clearTable_pending (s : State) : (s.clearTable).pending = s.pending := rfl
@[simp] theorem State.clearTable_replies (s : State) : (s.clearTable).replies = s.replies := rfl

/-! ### `State.setMode` -/

@[simp] theorem State.setMode_mode (s : State) (m : Mode) : (s.setMode m).mode = m := rfl
@[simp] theorem State.setMode_fault (s : State) (m : Mode) : (s.setMode m).fault = s.fault := rfl
@[simp] theorem State.setMode_err (s : State) (m : Mode) : (s.setMode m).err = s.err := rfl
@[simp] theorem State.setMode_errcmd (s : State) (m : Mode) : (s.setMode m).errcmd = s.errcmd := rfl
@[simp] theorem State.setMode_arg0 (s : State) (m : Mode) : (s.setMode m).arg0 = s.arg0 := rfl
@[simp] theorem State.setMode_arg1 (s : State) (m : Mode) : (s.setMode m).arg1 = s.arg1 := rfl
@[simp] theorem State.setMode_res0 (s : State) (m : Mode) : (s.setMode m).res0 = s.res0 := rfl
@[simp] theorem State.setMode_res1 (s : State) (m : Mode) : (s.setMode m).res1 = s.res1 := rfl
@[simp] theorem State.setMode_sr (s : State) (m : Mode) : (s.setMode m).sr = s.sr := rfl
@[simp] theorem State.setMode_maxblk (s : State) (m : Mode) : (s.setMode m).maxblk = s.maxblk := rfl
@[simp] theorem State.setMode_phase (s : State) (m : Mode) : (s.setMode m).phase = s.phase := rfl
@[simp] theorem State.setMode_inc (s : State) (m : Mode) : (s.setMode m).inc = s.inc := rfl
@[simp] theorem State.setMode_tbl (s : State) (m : Mode) : (s.setMode m).tbl = s.tbl := rfl
@[simp] theorem State.setMode_sh (s : State) (m : Mode) : (s.setMode m).sh = s.sh := rfl
@[simp] theorem State.setMode_shslope (s : State) (m : Mode) : (s.setMode m).shslope = s.shslope := rfl
@[simp] theorem State.setMode_coef (s : State) (m : Mode) : (s.setMode m).coef = s.coef := rfl
@[simp] theorem State.setMode_byp (s : State) (m : Mode) : (s.setMode m).byp = s.byp := rfl
@[simp] theorem State.setMode_dly (s : State) (m : Mode) : (s.setMode m).dly = s.dly := rfl
@[simp] theorem State.setMode_tblLen (s : State) (m : Mode) : (s.setMode m).tblLen = s.tblLen := rfl
@[simp] theorem State.setMode_pending (s : State) (m : Mode) : (s.setMode m).pending = s.pending := rfl
@[simp] theorem State.setMode_replies (s : State) (m : Mode) : (s.setMode m).replies = s.replies := rfl

/-! ### `State.latchSetup` -/

@[simp] theorem State.latchSetup_mode (s : State) : (s.latchSetup).mode = s.mode := rfl
@[simp] theorem State.latchSetup_fault (s : State) : (s.latchSetup).fault = s.fault := rfl
@[simp] theorem State.latchSetup_err (s : State) : (s.latchSetup).err = s.err := rfl
@[simp] theorem State.latchSetup_errcmd (s : State) : (s.latchSetup).errcmd = s.errcmd := rfl
@[simp] theorem State.latchSetup_arg0 (s : State) : (s.latchSetup).arg0 = s.arg0 := rfl
@[simp] theorem State.latchSetup_arg1 (s : State) : (s.latchSetup).arg1 = s.arg1 := rfl
@[simp] theorem State.latchSetup_res0 (s : State) : (s.latchSetup).res0 = s.res0 := rfl
@[simp] theorem State.latchSetup_res1 (s : State) : (s.latchSetup).res1 = s.res1 := rfl
@[simp] theorem State.latchSetup_sr (s : State) : (s.latchSetup).sr = s.arg0 := rfl
@[simp] theorem State.latchSetup_maxblk (s : State) : (s.latchSetup).maxblk = s.arg1 := rfl
@[simp] theorem State.latchSetup_phase (s : State) : (s.latchSetup).phase = s.phase := rfl
@[simp] theorem State.latchSetup_inc (s : State) : (s.latchSetup).inc = s.inc := rfl
@[simp] theorem State.latchSetup_tbl (s : State) : (s.latchSetup).tbl = s.tbl := rfl
@[simp] theorem State.latchSetup_sh (s : State) : (s.latchSetup).sh = s.sh := rfl
@[simp] theorem State.latchSetup_shslope (s : State) : (s.latchSetup).shslope = s.shslope := rfl
@[simp] theorem State.latchSetup_coef (s : State) : (s.latchSetup).coef = s.coef := rfl
@[simp] theorem State.latchSetup_byp (s : State) : (s.latchSetup).byp = s.byp := rfl
@[simp] theorem State.latchSetup_dly (s : State) : (s.latchSetup).dly = s.dly := rfl
@[simp] theorem State.latchSetup_tblLen (s : State) : (s.latchSetup).tblLen = s.tblLen := rfl
@[simp] theorem State.latchSetup_pending (s : State) : (s.latchSetup).pending = s.pending := rfl
@[simp] theorem State.latchSetup_replies (s : State) : (s.latchSetup).replies = s.replies := rfl

/-! ### `State.reply` -/

@[simp] theorem State.reply_mode (s : State) (w : Word) : (s.reply w).mode = s.mode := rfl
@[simp] theorem State.reply_fault (s : State) (w : Word) : (s.reply w).fault = s.fault := rfl
@[simp] theorem State.reply_err (s : State) (w : Word) : (s.reply w).err = s.err := rfl
@[simp] theorem State.reply_errcmd (s : State) (w : Word) : (s.reply w).errcmd = s.errcmd := rfl
@[simp] theorem State.reply_arg0 (s : State) (w : Word) : (s.reply w).arg0 = s.arg0 := rfl
@[simp] theorem State.reply_arg1 (s : State) (w : Word) : (s.reply w).arg1 = s.arg1 := rfl
@[simp] theorem State.reply_res0 (s : State) (w : Word) : (s.reply w).res0 = s.res0 := rfl
@[simp] theorem State.reply_res1 (s : State) (w : Word) : (s.reply w).res1 = s.res1 := rfl
@[simp] theorem State.reply_sr (s : State) (w : Word) : (s.reply w).sr = s.sr := rfl
@[simp] theorem State.reply_maxblk (s : State) (w : Word) : (s.reply w).maxblk = s.maxblk := rfl
@[simp] theorem State.reply_phase (s : State) (w : Word) : (s.reply w).phase = s.phase := rfl
@[simp] theorem State.reply_inc (s : State) (w : Word) : (s.reply w).inc = s.inc := rfl
@[simp] theorem State.reply_tbl (s : State) (w : Word) : (s.reply w).tbl = s.tbl := rfl
@[simp] theorem State.reply_sh (s : State) (w : Word) : (s.reply w).sh = s.sh := rfl
@[simp] theorem State.reply_shslope (s : State) (w : Word) : (s.reply w).shslope = s.shslope := rfl
@[simp] theorem State.reply_coef (s : State) (w : Word) : (s.reply w).coef = s.coef := rfl
@[simp] theorem State.reply_byp (s : State) (w : Word) : (s.reply w).byp = s.byp := rfl
@[simp] theorem State.reply_dly (s : State) (w : Word) : (s.reply w).dly = s.dly := rfl
@[simp] theorem State.reply_tblLen (s : State) (w : Word) : (s.reply w).tblLen = s.tblLen := rfl
@[simp] theorem State.reply_pending (s : State) (w : Word) : (s.reply w).pending = s.pending := rfl
@[simp] theorem State.reply_replies (s : State) (w : Word) : (s.reply w).replies = s.replies ++ [w] := rfl

/-! ### `State.recordFault` -/

@[simp] theorem State.recordFault_mode (s : State) (c : FaultCode) (w : Word) : (s.recordFault c w).mode = s.mode := by
  unfold State.recordFault; split <;> rfl
@[simp] theorem State.recordFault_fault (s : State) (c : FaultCode) (w : Word) : (s.recordFault c w).fault = true := by
  unfold State.recordFault; split <;> rfl
@[simp] theorem State.recordFault_arg0 (s : State) (c : FaultCode) (w : Word) : (s.recordFault c w).arg0 = s.arg0 := by
  unfold State.recordFault; split <;> rfl
@[simp] theorem State.recordFault_arg1 (s : State) (c : FaultCode) (w : Word) : (s.recordFault c w).arg1 = s.arg1 := by
  unfold State.recordFault; split <;> rfl
@[simp] theorem State.recordFault_res0 (s : State) (c : FaultCode) (w : Word) : (s.recordFault c w).res0 = s.res0 := by
  unfold State.recordFault; split <;> rfl
@[simp] theorem State.recordFault_res1 (s : State) (c : FaultCode) (w : Word) : (s.recordFault c w).res1 = s.res1 := by
  unfold State.recordFault; split <;> rfl
@[simp] theorem State.recordFault_sr (s : State) (c : FaultCode) (w : Word) : (s.recordFault c w).sr = s.sr := by
  unfold State.recordFault; split <;> rfl
@[simp] theorem State.recordFault_maxblk (s : State) (c : FaultCode) (w : Word) : (s.recordFault c w).maxblk = s.maxblk := by
  unfold State.recordFault; split <;> rfl
@[simp] theorem State.recordFault_phase (s : State) (c : FaultCode) (w : Word) : (s.recordFault c w).phase = s.phase := by
  unfold State.recordFault; split <;> rfl
@[simp] theorem State.recordFault_inc (s : State) (c : FaultCode) (w : Word) : (s.recordFault c w).inc = s.inc := by
  unfold State.recordFault; split <;> rfl
@[simp] theorem State.recordFault_tbl (s : State) (c : FaultCode) (w : Word) : (s.recordFault c w).tbl = s.tbl := by
  unfold State.recordFault; split <;> rfl
@[simp] theorem State.recordFault_sh (s : State) (c : FaultCode) (w : Word) : (s.recordFault c w).sh = s.sh := by
  unfold State.recordFault; split <;> rfl
@[simp] theorem State.recordFault_shslope (s : State) (c : FaultCode) (w : Word) : (s.recordFault c w).shslope = s.shslope := by
  unfold State.recordFault; split <;> rfl
@[simp] theorem State.recordFault_coef (s : State) (c : FaultCode) (w : Word) : (s.recordFault c w).coef = s.coef := by
  unfold State.recordFault; split <;> rfl
@[simp] theorem State.recordFault_byp (s : State) (c : FaultCode) (w : Word) : (s.recordFault c w).byp = s.byp := by
  unfold State.recordFault; split <;> rfl
@[simp] theorem State.recordFault_dly (s : State) (c : FaultCode) (w : Word) : (s.recordFault c w).dly = s.dly := by
  unfold State.recordFault; split <;> rfl
@[simp] theorem State.recordFault_tblLen (s : State) (c : FaultCode) (w : Word) : (s.recordFault c w).tblLen = s.tblLen := by
  unfold State.recordFault; split <;> rfl
@[simp] theorem State.recordFault_pending (s : State) (c : FaultCode) (w : Word) : (s.recordFault c w).pending = s.pending := by
  unfold State.recordFault; split <;> rfl
@[simp] theorem State.recordFault_replies (s : State) (c : FaultCode) (w : Word) : (s.recordFault c w).replies = s.replies := by
  unfold State.recordFault; split <;> rfl

theorem State.recordFault_err (s : State) (c : FaultCode) (w : Word) :
    (s.recordFault c w).err = if s.err = 0 then c.code else s.err := by
  unfold State.recordFault; split <;> rfl
theorem State.recordFault_errcmd (s : State) (c : FaultCode) (w : Word) :
    (s.recordFault c w).errcmd = if s.err = 0 then w else s.errcmd := by
  unfold State.recordFault; split <;> rfl

/-- The fault record is all that recording a fault changes. -/
theorem State.recordFault_eq (s : State) (c : FaultCode) (w : Word) :
    s.recordFault c w = { s with
      fault := true
      err := if s.err = 0 then c.code else s.err
      errcmd := if s.err = 0 then w else s.errcmd } := by
  unfold State.recordFault; split <;> rfl

end Sys2Proof.Machine
end

