-- ==== Sys2Proof/Laws/Ops.lean ====
section
/-! SUPPORT. What each shared operation can do, said once: the wavetable memory, the per-chain and per-channel pairs, the stage
indices, running a command, the hot swap, and the bus. -/

namespace Sys2Proof.Machine

/-! ### Wavetable memory -/

@[simp] theorem Memory.read_nil (i : Nat) : Memory.read [] i = none := rfl

@[simp] theorem Memory.read_empty (i : Nat) : Memory.empty.read i = none := rfl

/-- Reading the entry just written gives what was written. -/
@[simp] theorem Memory.read_write_same (m : Memory) (i : Nat) (v : Word) : (m.write i v).read i = some v := by
  induction m with
  | nil => simp [Memory.write, Memory.read]
  | cons e rest ih =>
    obtain ⟨j, u⟩ := e
    unfold Memory.write
    split
    · simp [Memory.read]
    · split
      · simp [Memory.read]
      · next h => simpa [Memory.read, h] using ih

/-- Reading another entry gives what was there. -/
theorem Memory.read_write_other (m : Memory) {i j : Nat} (v : Word) (h : j ≠ i) :
    (m.write i v).read j = m.read j := by
  induction m with
  | nil => simp [Memory.write, Memory.read, h]
  | cons e rest ih =>
    obtain ⟨k, u⟩ := e
    unfold Memory.write
    split
    · simp [Memory.read, h]
    · split
      · next hk => subst hk; simp [Memory.read, h]
      · simp only [Memory.read]; split
        · rfl
        · exact ih

/-- Every index of a table after a write was there before or is the one written. -/
theorem Memory.mem_write {m : Memory} {i : Nat} {v : Word} {e : Nat × Word} (h : e ∈ m.write i v) :
    e = (i, v) ∨ e ∈ m := by
  induction m with
  | nil => simpa [Memory.write] using h
  | cons d rest ih =>
    obtain ⟨j, u⟩ := d
    unfold Memory.write at h
    split at h
    · simpa using h
    · split at h
      · rcases List.mem_cons.1 h with h | h
        · exact .inl h
        · exact .inr (List.mem_cons_of_mem _ h)
      · rcases List.mem_cons.1 h with h | h
        · exact .inr (h ▸ List.mem_cons_self)
        · exact (ih h).imp id (List.mem_cons_of_mem _)

/-- A write keeps the canonical form. -/
theorem Memory.wf_write {m : Memory} (h : m.wf) (i : Nat) (v : Word) : Memory.wf (m.write i v) := by
  induction m with
  | nil => simp [Memory.wf, Memory.write]
  | cons d rest ih =>
    obtain ⟨j, u⟩ := d
    obtain ⟨h1, h2⟩ := List.pairwise_cons.1 h
    unfold Memory.write
    split
    · next hij =>
      refine List.pairwise_cons.2 ⟨fun e he => ?_, h⟩
      rcases List.mem_cons.1 he with he | he
      · subst he; exact hij
      · exact lt_trans hij (h1 e he)
    · next hij =>
      split
      · next hj => subst hj; exact List.pairwise_cons.2 ⟨h1, h2⟩
      · next hj =>
        refine List.pairwise_cons.2 ⟨fun e he => ?_, ih h2⟩
        rcases Memory.mem_write he with he | he
        · subst he; exact lt_of_le_of_ne (not_lt.1 hij) (Ne.symm hj)
        · exact h1 e he

/-- The empty table is in canonical form. -/
theorem Memory.wf_empty : Memory.wf Memory.empty := List.Pairwise.nil

/-- Reset leaves the table in canonical form. -/
theorem State.resetOf_tbl_wf (len : TblLen) : (State.resetOf len).tbl.wf := List.Pairwise.nil

/-- TBL_FULL says that every entry below L is written. -/
theorem Memory.full_iff (m : Memory) (len : TblLen) :
    m.full len = true ↔ ∀ i, i < len.val → ∃ v, m.read i = some v := by
  simp [Memory.full, Memory.written, Option.isSome_iff_exists]

/-! ### Pairs and indices -/

@[simp] theorem PerChain.get_set_same {α : Type} (p : PerChain α) (c : Chain) (v : α) : (p.set c v).get c = v := by
  cases c <;> rfl
@[simp] theorem PerChain.get_lc {α : Type} (p : PerChain α) : p.get .lc = p.lc := rfl
@[simp] theorem PerChain.get_hc {α : Type} (p : PerChain α) : p.get .hc = p.hc := rfl
theorem PerChain.get_set_other {α : Type} (p : PerChain α) {c d : Chain} (v : α) (h : d ≠ c) :
    (p.set c v).get d = p.get d := by
  cases c <;> cases d <;> first | rfl | exact absurd rfl h

@[simp] theorem PerChannel.get_set_same {α : Type} (p : PerChannel α) (c : Channel) (v : α) : (p.set c v).get c = v := by
  cases c <;> rfl
@[simp] theorem PerChannel.get_left {α : Type} (p : PerChannel α) : p.get .left = p.left := rfl
@[simp] theorem PerChannel.get_right {α : Type} (p : PerChannel α) : p.get .right = p.right := rfl
theorem PerChannel.get_set_other {α : Type} (p : PerChannel α) {c d : Channel} (v : α) (h : d ≠ c) :
    (p.set c v).get d = p.get d := by
  cases c <;> cases d <;> first | rfl | exact absurd rfl h

@[simp] theorem CoefSet.get_set_same (c : CoefSet) (k : Coef) (v : Word) : (c.set k v).get k = v := by cases k <;> rfl
theorem CoefSet.get_set_other (c : CoefSet) {k j : Coef} (v : Word) (h : j ≠ k) : (c.set k v).get j = c.get j := by
  cases k <;> cases j <;> first | rfl | exact absurd rfl h

/-- A legal SET or STG names the stage of its value. -/
theorem stageOf_legal {s : Fin 16} (h : legalStage s = true) :
    stageOf s = some ⟨s.val, by simp [legalStage] at h; omega⟩ := by
  have : s.val < 9 := by simp [legalStage] at h; omega
  simp [stageOf, this]

/-- An illegal SET or STG names no stage. -/
theorem stageOf_illegal {s : Fin 16} (h : legalStage s = false) : stageOf s = none := by
  have : ¬ s.val < 9 := by simp [legalStage] at h; omega
  simp [stageOf, this]

/-- K names a coefficient exactly when it is legal. -/
theorem coefOf_isSome (k : Fin 8) : (coefOf k).isSome = legalCoef k := by revert k; decide

/-! ### Recording a fault and running a command -/

/-- Everything recording a fault can do: the first one since reset fills the record, a later one only sets FAULT again
(R203). -/
theorem State.recordFault_cases (s : State) (c : FaultCode) (w : Word) :
    (s.err = 0 ∧ s.recordFault c w = { s with fault := true, err := c.code, errcmd := w }) ∨
    (s.err ≠ 0 ∧ s.recordFault c w = { s with fault := true }) := by
  unfold State.recordFault
  split
  · exact .inl ⟨‹_›, rfl⟩
  · exact .inr ⟨‹_›, rfl⟩

/-- Everything running a command can do: its pseudocode's state, or the state before with one fault recorded (R201, R202). -/
theorem runCommand_cases {modes : List Mode} {w : Word} {body : State → Except FaultCode State} {s t : State}
    (h : runCommand modes w body s = .next t) :
    (s.mode ∈ modes ∧ body s = .ok t) ∨
    (s.mode ∈ modes ∧ ∃ c, body s = .error c ∧ t = s.recordFault c w) ∨
    (s.mode ∉ modes ∧ t = s.recordFault .mode w) := by
  unfold runCommand at h
  split at h
  · next hm =>
    split at h
    · next hb => cases h; exact .inl ⟨hm, hb⟩
    · next c hb => cases h; exact .inr (.inl ⟨hm, c, hb, rfl⟩)
  · next hm => cases h; exact .inr (.inr ⟨hm, rfl⟩)

/-- Running a command always answers a next state. -/
theorem runCommand_completes (modes : List Mode) (w : Word) (body : State → Except FaultCode State) (s : State) :
    ∃ t, runCommand modes w body s = .next t := by
  unfold runCommand
  split
  · split
    · exact ⟨_, rfl⟩
    · exact ⟨_, rfl⟩
  · exact ⟨_, rfl⟩

theorem runCommand_ok {modes : List Mode} {w : Word} {body : State → Except FaultCode State} {s t : State}
    (hm : s.mode ∈ modes) (hb : body s = .ok t) : runCommand modes w body s = .next t := by
  simp [runCommand, hm, hb]

theorem runCommand_error {modes : List Mode} {w : Word} {body : State → Except FaultCode State} {s : State} {c : FaultCode}
    (hm : s.mode ∈ modes) (hb : body s = .error c) : runCommand modes w body s = .next (s.recordFault c w) := by
  simp [runCommand, hm, hb]

theorem runCommand_mode {modes : List Mode} {w : Word} {body : State → Except FaultCode State} {s : State}
    (hm : s.mode ∉ modes) : runCommand modes w body s = .next (s.recordFault .mode w) := by
  simp [runCommand, hm]

@[simp] theorem mem_anyMode (m : Mode) : m ∈ anyMode := by cases m <;> decide

/-! ### The hot swap (R146) -/

/-- Phase 2 over any list of slots changes COEF and BYP only. -/
theorem State.commitSlots_frame (c : Chain) (l : List (Fin 4)) (s : State) :
    l.foldl (State.commitSlot c) s =
      { s with coef := (l.foldl (State.commitSlot c) s).coef, byp := (l.foldl (State.commitSlot c) s).byp } := by
  induction l generalizing s with
  | nil => rfl
  | cons i l ih => rw [List.foldl_cons, ih]; rfl

/-- A commit changes COEF and BYP only (R146, R169). -/
theorem State.committed_frame (s : State) :
    s.committed = { s with coef := s.committed.coef, byp := s.committed.byp } := by
  unfold State.committed State.commitChain
  rw [State.commitSlots_frame, State.commitSlots_frame]
  rfl

/-- Phase 2 over a list of slots copies the sets of those slots' stages and no other. -/
theorem State.commitSlots_coef (c : Chain) (l : List (Fin 4)) (s : State) (st : Fin 9) :
    (l.foldl (State.commitSlot c) s).coef[st] =
      if ∃ i ∈ l, cutStage c i = st then s.sh[st] else s.coef[st] := by
  induction l generalizing s with
  | nil => simp
  | cons i l ih =>
    rw [List.foldl_cons, ih]
    have h1 : (s.commitSlot c i).sh = s.sh := rfl
    have h2 : (s.commitSlot c i).coef[st] = if cutStage c i = st then s.sh[st] else s.coef[st] := by
      show (s.coef.set (cutStage c i) s.sh[cutStage c i])[st] = _
      by_cases h : cutStage c i = st
      · subst h; simp
      · have : (cutStage c i).val ≠ st.val := fun e => h (Fin.ext e)
        simp [h, this]
    rw [h1, h2]
    by_cases h : cutStage c i = st <;> simp [h]

/-- Phase 2 over a list of slots makes those slots of the chain active and no other. -/
theorem State.commitSlots_byp (c : Chain) (l : List (Fin 4)) (s : State) (j : Fin 4) :
    ((l.foldl (State.commitSlot c) s).byp.get c)[j] = if j ∈ l then false else (s.byp.get c)[j] := by
  induction l generalizing s with
  | nil => simp
  | cons i l ih =>
    rw [List.foldl_cons, ih]
    have h2 : ((s.commitSlot c i).byp.get c)[j] = if j = i then false else (s.byp.get c)[j] := by
      show ((s.byp.set c ((s.byp.get c).set i false)).get c)[j] = _
      rw [PerChain.get_set_same]
      by_cases h : j = i
      · subst h; simp
      · have : i.val ≠ j.val := fun e => h (Fin.ext e.symm)
        simp [h, this]
    rw [h2]
    by_cases h : j = i <;> simp [h]

/-- Phase 2 of one chain leaves the other chain's flags alone. -/
theorem State.commitSlots_byp_other {c d : Chain} (h : d ≠ c) (l : List (Fin 4)) (s : State) :
    (l.foldl (State.commitSlot c) s).byp.get d = s.byp.get d := by
  induction l generalizing s with
  | nil => rfl
  | cons i l ih => rw [List.foldl_cons, ih]; exact PerChain.get_set_other _ _ h

/-- The slots a code makes active are those below its active count (R141). -/
theorem mem_activeSlots (n : BitVec 2) (i : Fin 4) : i ∈ activeSlots n ↔ i.val < activeCount n := by
  have : i ∈ slots := by revert i; decide
  simp [activeSlots, this]

/-- After the update of one chain its flag i is set exactly from the active count on (R147.1). -/
theorem State.commitChain_byp (s : State) (c : Chain) (i : Fin 4) :
    ((s.commitChain c).byp.get c)[i] = decide (activeCount (s.shslope.get c) ≤ i.val) := by
  rw [State.commitChain, State.commitSlots_byp]
  simp only [mem_activeSlots, State.bypassChain_byp, PerChain.get_set_same]
  by_cases h : i.val < activeCount (s.shslope.get c)
  · simp [h, not_le.2 h]
  · simp [h, not_lt.1 h]

theorem State.commitChain_byp_other (s : State) {c d : Chain} (h : d ≠ c) :
    (s.commitChain c).byp.get d = s.byp.get d := by
  rw [State.commitChain, State.commitSlots_byp_other h]; exact PerChain.get_set_other _ _ h

theorem cutStage_inj {c d : Chain} {i j : Fin 4} : cutStage c i = cutStage d j ↔ c = d ∧ i = j := by
  cases c <;> cases d <;> revert i j <;> decide

theorem cutStage_ne_peak (c : Chain) (i : Fin 4) : cutStage c i ≠ peakStage := by
  cases c <;> revert i <;> decide

/-- A cut stage of the updated chain holds its shadow set exactly below the active count (R147.2). -/
theorem State.commitChain_coef (s : State) (c : Chain) (i : Fin 4) :
    (s.commitChain c).coef[cutStage c i] =
      if i.val < activeCount (s.shslope.get c) then s.sh[cutStage c i] else s.coef[cutStage c i] := by
  rw [State.commitChain, State.commitSlots_coef]
  by_cases h : i.val < activeCount (s.shslope.get c)
  · rw [if_pos h, if_pos ⟨i, (mem_activeSlots _ _).2 h, rfl⟩]; rfl
  · rw [if_neg h, if_neg]
    · rfl
    · rintro ⟨j, hj, e⟩
      rw [(cutStage_inj.1 e).2] at hj
      exact h ((mem_activeSlots _ _).1 hj)

/-- The update of a chain leaves the stages outside it alone. -/
theorem State.commitChain_coef_other (s : State) (c : Chain) {st : Fin 9} (h : ∀ i, cutStage c i ≠ st) :
    (s.commitChain c).coef[st] = s.coef[st] := by
  rw [State.commitChain, State.commitSlots_coef, if_neg]
  · rfl
  · rintro ⟨i, _, e⟩; exact h i e

theorem State.commitChain_frame (s : State) (c : Chain) :
    s.commitChain c = { s with coef := (s.commitChain c).coef, byp := (s.commitChain c).byp } := by
  unfold State.commitChain
  rw [State.commitSlots_frame]
  rfl

@[simp] theorem State.commitChain_sh (s : State) (c : Chain) : (s.commitChain c).sh = s.sh := by
  rw [State.commitChain_frame]
@[simp] theorem State.commitChain_shslope (s : State) (c : Chain) : (s.commitChain c).shslope = s.shslope := by
  rw [State.commitChain_frame]

/-- After a commit, flag i of a chain is set exactly from that chain's active count on (R146, R147.1). -/
theorem State.committed_byp (s : State) (c : Chain) (i : Fin 4) :
    (s.committed.byp.get c)[i] = decide (activeCount (s.shslope.get c) ≤ i.val) := by
  cases c with
  | lc =>
    rw [State.committed, State.commitChain_byp_other _ (by decide), State.commitChain_byp]; rfl
  | hc => rw [State.committed, State.commitChain_byp, State.commitChain_shslope]; rfl

/-- After a commit the peak stage holds its shadow set (R146). -/
theorem State.committed_coef_peak (s : State) : s.committed.coef[peakStage] = s.sh[peakStage] := by
  rw [State.committed, State.commitChain_coef_other _ _ (cutStage_ne_peak _),
    State.commitChain_coef_other _ _ (cutStage_ne_peak _)]
  show (s.coef.set peakStage s.sh[peakStage])[peakStage] = _
  simp

/-- After a commit a cut stage holds its shadow set if it is active, and the set it had otherwise (R146, R147.2). -/
theorem State.committed_coef_cut (s : State) (c : Chain) (i : Fin 4) :
    s.committed.coef[cutStage c i] =
      if i.val < activeCount (s.shslope.get c) then s.sh[cutStage c i] else s.coef[cutStage c i] := by
  have hp : (s.loadStage peakStage).coef[cutStage c i] = s.coef[cutStage c i] := by
    show (s.coef.set peakStage s.sh[peakStage])[cutStage c i] = _
    have : peakStage.val ≠ (cutStage c i).val := fun e => cutStage_ne_peak c i (Fin.ext e.symm)
    simp [this]
  cases c with
  | lc =>
    rw [State.committed, State.commitChain_coef_other _ _ (fun j e => by simpa using (cutStage_inj.1 e).1),
      State.commitChain_coef, hp]
    rfl
  | hc =>
    rw [State.committed, State.commitChain_coef, State.commitChain_sh, State.commitChain_shslope,
      State.commitChain_coef_other _ _ (fun j e => by simpa using (cutStage_inj.1 e).1), hp]
    rfl

/-! ### The chain (R160 to R162) -/

/-- A stage leaves the delay words of every other stage alone. -/
theorem stageStep_other (coef : Vector CoefSet 9) (act : Fin 9 → Bool) (xd : Word × Vector Delay 9) {st j : Fin 9}
    (h : j ≠ st) : (stageStep coef act xd st).2[j] = xd.2[j] := by
  unfold stageStep
  split
  · have : st.val ≠ j.val := fun e => h (Fin.ext e.symm)
    simp [this]
  · rfl

/-- A stage that is not active is the identity (R161). -/
theorem stageStep_bypassed {coef : Vector CoefSet 9} {act : Fin 9 → Bool} {xd : Word × Vector Delay 9} {st : Fin 9}
    (h : act st = false) : stageStep coef act xd st = xd := by
  simp [stageStep, h]

/-- An active stage computes on its own delay words (R160). -/
theorem stageStep_active {coef : Vector CoefSet 9} {act : Fin 9 → Bool} {xd : Word × Vector Delay 9} {st : Fin 9}
    (h : act st = true) :
    stageStep coef act xd st =
      ((biquad coef[st] xd.2[st] xd.1).1, xd.2.set st (biquad coef[st] xd.2[st] xd.1).2) := by
  simp [stageStep, h]

/-- What the chain computes depends on the active sets, the flags and the delay lines of its channel only (R163). -/
theorem State.chain_congr {s t : State} (hc : s.coef = t.coef) (hb : s.byp = t.byp) (ch : Channel)
    (hd : s.dly.get ch = t.dly.get ch) (x : Word) : s.chain ch x = t.chain ch x := by
  have ha : s.active = t.active := by funext st; simp only [State.active, hb]
  rw [State.chain, State.chain, hc, ha, hd]

/-! ### The bus -/

/-- `regAt` names a register exactly at the twelve offsets of the map. -/
theorem regAt_isSome (off : Byte) : (regAt off).isSome = decide (off.toNat % 4 = 0 ∧ off.toNat ≤ 0x2C) := by
  revert off; decide

/-- Everything issuing a word can do: the meaning of the command it decodes to, or E_ILLEGAL (R74, R201). -/
theorem issue_cases (w : Word) (s : State) :
    (∃ i, decode w = .ok i ∧ issue w s = exec i s) ∨
    (∃ e, decode w = .error e ∧ issue w s = .next (s.recordFault .illegal w)) := by
  unfold issue
  split
  · next i h => exact .inl ⟨i, h, rfl⟩
  · next e h => exact .inr ⟨e, h, rfl⟩

/-- Everything a Read can do: the register's word, or 0 and E_BUS (R51, R53, R54). -/
theorem busRead_cases (off : Byte) (s : State) :
    (∃ r, regAt off = some r ∧ busRead off s = s.reply (s.readReg r)) ∨
    (regAt off = none ∧ busRead off s = (s.recordFault .bus (busInfo false off)).reply 0) := by
  unfold busRead
  split
  · next r h => exact .inl ⟨r, h, rfl⟩
  · next h => exact .inr ⟨h, rfl⟩

/-- Everything a Write can do: store an operand, issue a command, or be refused (R51, R53, R54). -/
theorem busWrite_cases (off : Byte) (w : Word) (be : BitVec 4) (s : State) :
    (regAt off = some .arg0 ∧ busWrite off w be s = .next { s with arg0 := w }) ∨
    (regAt off = some .arg1 ∧ busWrite off w be s = .next { s with arg1 := w }) ∨
    (regAt off = some .cmd ∧ be = 0b1111#4 ∧ busWrite off w be s = issue w s) ∨
    busWrite off w be s = .next (s.recordFault .bus (busInfo true off)) := by
  unfold busWrite
  split
  · next hb =>
    split
    · next h => exact .inl ⟨h, rfl⟩
    · next h => exact .inr (.inl ⟨h, rfl⟩)
    · next h => exact .inr (.inr (.inl ⟨h, hb, rfl⟩))
    · exact .inr (.inr (.inr rfl))
  · exact .inr (.inr (.inr rfl))

end Sys2Proof.Machine
end

