-- ==== Sys2Proof/Laws/PerInstr.lean ====
section
/-! SUPPORT. The per-instruction family `Selected`: the word of a command is selected by its own row of the opcode map, which
reads back from it the command it was written for (R71, R73). One lemma for each constructor. -/

namespace Sys2Proof.Laws

/-- The row at the command's place in the table selects the command's word and builds the command from it. -/
def Selected.Statement (i : Instr) : Prop :=
  ∃ r ∈ rows, r.selects (encode i) = true ∧ r.build (encode i) = i

theorem Selected.nop : Selected.Statement .nop :=
  ⟨rows[0], List.getElem_mem _, by decide, by decide⟩

theorem Selected.prepare : Selected.Statement .prepare :=
  ⟨rows[1], List.getElem_mem _, by decide, by decide⟩

theorem Selected.start : Selected.Statement .start :=
  ⟨rows[2], List.getElem_mem _, by decide, by decide⟩

theorem Selected.oscSetfreq (o : Fin 128) : Selected.Statement (.oscSetfreq o) :=
  ⟨rows[3], List.getElem_mem _, by revert o; decide +kernel, by revert o; decide +kernel⟩

theorem Selected.oscSample (o : Fin 128) : Selected.Statement (.oscSample o) :=
  ⟨rows[4], List.getElem_mem _, by revert o; decide +kernel, by revert o; decide +kernel⟩

theorem Selected.oscStop (o : Fin 128) : Selected.Statement (.oscStop o) :=
  ⟨rows[5], List.getElem_mem _, by revert o; decide +kernel, by revert o; decide +kernel⟩

theorem Selected.oscStatus (o : Fin 128) : Selected.Statement (.oscStatus o) :=
  ⟨rows[6], List.getElem_mem _, by revert o; decide +kernel, by revert o; decide +kernel⟩

theorem Selected.oscRead (o : Fin 128) : Selected.Statement (.oscRead o) :=
  ⟨rows[7], List.getElem_mem _, by revert o; decide +kernel, by revert o; decide +kernel⟩

theorem Selected.wtWrite (i : Fin 4096) : Selected.Statement (.wtWrite i) :=
  ⟨rows[8], List.getElem_mem _, beq_iff_eq.2 (encodeT_mask 0x20 i), congrArg Instr.wtWrite (fieldIdx_encodeT 0x20 i)⟩

theorem Selected.wtRead (i : Fin 4096) : Selected.Statement (.wtRead i) :=
  ⟨rows[9], List.getElem_mem _, beq_iff_eq.2 (encodeT_mask 0x21 i), congrArg Instr.wtRead (fieldIdx_encodeT 0x21 i)⟩

theorem Selected.cfWrite (s : Fin 16) (k : Fin 8) : Selected.Statement (.cfWrite s k) :=
  ⟨rows[10], List.getElem_mem _, by revert s k; decide +kernel, by revert s k; decide +kernel⟩

theorem Selected.cfRead (s : Fin 16) (k : Fin 8) : Selected.Statement (.cfRead s k) :=
  ⟨rows[11], List.getElem_mem _, by revert s k; decide +kernel, by revert s k; decide +kernel⟩

theorem Selected.cfSlope (c : Chain) (n : BitVec 2) : Selected.Statement (.cfSlope c n) :=
  ⟨rows[12], List.getElem_mem _, by cases c <;> (revert n; decide +kernel), by cases c <;> (revert n; decide +kernel)⟩

theorem Selected.cfCommit : Selected.Statement .cfCommit :=
  ⟨rows[13], List.getElem_mem _, by decide, by decide⟩

theorem Selected.cfStat : Selected.Statement .cfStat :=
  ⟨rows[14], List.getElem_mem _, by decide, by decide⟩

theorem Selected.bqProc (ch : Channel) : Selected.Statement (.bqProc ch) :=
  ⟨rows[15], List.getElem_mem _, by cases ch <;> decide, by cases ch <;> decide⟩

theorem Selected.bqProc2 : Selected.Statement .bqProc2 :=
  ⟨rows[16], List.getElem_mem _, by decide, by decide⟩

theorem Selected.bqReset : Selected.Statement .bqReset :=
  ⟨rows[17], List.getElem_mem _, by decide, by decide⟩

theorem Selected.bqRdstate (ch : Channel) (s : Fin 16) (j : StateWord) : Selected.Statement (.bqRdstate ch s j) :=
  ⟨rows[18], List.getElem_mem _, by cases ch <;> cases j <;> (revert s; decide +kernel), by cases ch <;> cases j <;> (revert s; decide +kernel)⟩

theorem Selected.bqRdcoef (s : Fin 16) (k : Fin 8) : Selected.Statement (.bqRdcoef s k) :=
  ⟨rows[19], List.getElem_mem _, by revert s k; decide +kernel, by revert s k; decide +kernel⟩

end Sys2Proof.Laws
end

