-- ==== Sys2Proof/Tests/Slice0.lean ====
section
/-! SUPPORT. Small tests, one step each, and for every obligation that has hypotheses a witness that meets them. The expected
values come from the spec: its worked encodings (R75), the examples of its rules and 95_test_vectors.md. -/

namespace Sys2Proof.Tests

set_option Elab.async false

open Sys2Proof.Machine

/-! ### Helpers -/

def len2 : TblLen := ⟨2, by decide, by decide⟩
def len4 : TblLen := ⟨4, by decide, by decide⟩

/-- The launch state SET(4) of 95_test_vectors.md. -/
def set4 : State :=
  { State.resetOf len4 with mode := .setup, sr := 0x473B8000, maxblk := 64, arg0 := 0x473B8000, arg1 := 64 }

/-- The launch state RUN4: the table 0, 1, 0, -1. -/
def run4 : State :=
  { set4 with mode := .run, arg0 := 0xBF800000,
              tbl := [(0, 0x00000000), (1, 0x3F800000), (2, 0x00000000), (3, 0xBF800000)] }

/-- RUN4 with oscillator o at a phase and with an increment. -/
def playing (o : Fin 128) (p x : Word) : State := { run4 with phase := run4.phase.set o p, inc := run4.inc.set o x }

/-- RUN4 with a peak set and delay words of the left peak stage. -/
def peak (c : CoefSet) (d : Delay) : State :=
  { run4 with coef := run4.coef.set 4 c, dly := ⟨run4.dly.left.set 4 d, run4.dly.right⟩ }

/-- The next state of an outcome. -/
def nextOf : Result → Option State
  | .next t => some t
  | _ => none

/-- The next state, seen through one of its fields. -/
def seen {α : Type} (f : State → α) (r : Result) : Option α := (nextOf r).map f

/-- One transaction served in a state. -/
def served (e : HostEvent) (s : State) : Result := step (s.withInputs [e])

/-- What a fault record shows: FAULT, ERR and ERRCMD. -/
def record (s : State) : Bool × Byte × Word := (s.fault, s.err, s.errcmd)

/-- The instruction a word decodes to. -/
def decoded (w : Word) : Option Instr :=
  match decode w with
  | .ok i => some i
  | .error _ => none

/-- The name under which a word is rejected. -/
def rejected (w : Word) : Option DecodeError :=
  match decode w with
  | .ok _ => none
  | .error e => some e

theorem nextOf_eq {r : Result} {t : State} (h : nextOf r = some t) : r = .next t := by
  cases r <;> simp_all [nextOf]

/-! ### WellFormed refuses (R71, R76) -/

theorem test_wf_refuses_set_9 : Instr.wellFormed (.cfWrite 9 0) = false := by decide
theorem test_wf_refuses_k_5 : Instr.wellFormed (.cfWrite 0 5) = false := by decide
theorem test_wf_refuses_read_set_15 : Instr.wellFormed (.cfRead 15 4) = false := by decide
theorem test_wf_refuses_read_k_7 : Instr.wellFormed (.cfRead 8 7) = false := by decide
theorem test_wf_refuses_rdcoef_set_9 : Instr.wellFormed (.bqRdcoef 9 0) = false := by decide
theorem test_wf_refuses_rdcoef_k_5 : Instr.wellFormed (.bqRdcoef 8 5) = false := by decide
theorem test_wf_refuses_stg_9 : Instr.wellFormed (.bqRdstate .left 9 .s1) = false := by decide
theorem test_wf_accepts_the_last_fields : Instr.wellFormed (.cfWrite 8 4) = true ∧
    Instr.wellFormed (.bqRdstate .right 8 .s2) = true := by decide

/-! ### Decoding words written out from R71 and R73 -/

theorem test_decode_setup : decoded 0x00000000 = some .nop ∧ decoded 0x01000000 = some .prepare ∧
    decoded 0x02000000 = some .start := by decide
-- OPC 0x10 .. 0x14, OSC = 69 = 1000101, 127 = 1111111, 5 = 0000101 in bits 6:0
theorem test_decode_osc : decoded 0x10000045 = some (.oscSetfreq 69) ∧ decoded 0x1100007F = some (.oscSample 127) ∧
    decoded 0x12000005 = some (.oscStop 5) ∧ decoded 0x13000000 = some (.oscStatus 0) ∧
    decoded 0x14000005 = some (.oscRead 5) := by decide
-- IDX = 63 and 4095 in bits 11:0
theorem test_decode_wt : decoded 0x2000003F = some (.wtWrite 63) ∧ decoded 0x21000FFF = some (.wtRead 4095) := by decide
-- SET in bits 6:3, K in bits 2:0: 0101 000, 1000 100, 0101 000
theorem test_decode_cf : decoded 0x30000028 = some (.cfWrite 5 0) ∧ decoded 0x31000044 = some (.cfRead 8 4) ∧
    decoded 0x32000007 = some (.cfSlope .hc 3) ∧ decoded 0x32000001 = some (.cfSlope .lc 1) ∧
    decoded 0x33000000 = some .cfCommit ∧ decoded 0x34000000 = some .cfStat := by decide
-- CH in bit 0; CH bit 5, STG bits 4:1, SK bit 0: 1 0100 1, 0 0100 0
theorem test_decode_bq : decoded 0x40000001 = some (.bqProc .right) ∧ decoded 0x41000000 = some .bqProc2 ∧
    decoded 0x42000000 = some .bqReset ∧ decoded 0x43000029 = some (.bqRdstate .right 4 .s2) ∧
    decoded 0x43000008 = some (.bqRdstate .left 4 .s1) ∧ decoded 0x44000008 = some (.bqRdcoef 1 0) := by decide
theorem test_reject_opcode : rejected 0x03000000 = some .undefinedOpcode ∧ rejected 0x45000000 = some .undefinedOpcode ∧
    rejected 0xFF000000 = some .undefinedOpcode := by decide
theorem test_reject_reserved : rejected 0x01000001 = some .reservedBit ∧ rejected 0x11000080 = some .reservedBit ∧
    rejected 0x21001000 = some .reservedBit ∧ rejected 0x32000008 = some .reservedBit ∧
    rejected 0x40000002 = some .reservedBit ∧ rejected 0x43000040 = some .reservedBit := by decide
theorem test_reject_field : rejected 0x30000048 = some .fieldRange ∧ rejected 0x44000005 = some .fieldRange ∧
    rejected 0x43000012 = some .fieldRange := by decide
theorem test_reject_truncated : (decodeBytes [0x45, 0x00, 0x00]).toOption = none := by decide
-- R52: lane 0 is bits 7:0
theorem test_decode_lanes : (decodeBytes [0x45, 0x00, 0x00, 0x10]).toOption = some (.oscSetfreq 69, []) := by decide
theorem test_decodeTableWord : decodeTableWord 32 0x10000045 = some (.oscSetfreq 69) ∧
    decodeTableWord 32 0x03000000 = none := by decide
theorem test_encode : encode (.oscSetfreq 69) = 0x10000045 ∧ encode (.wtWrite 63) = 0x2000003F ∧
    encode (.cfWrite 5 0) = 0x30000028 ∧ encode (.cfSlope .hc 3) = 0x32000007 ∧ encode (.bqProc .right) = 0x40000001 ∧
    encode (.bqRdstate .right 4 .s2) = 0x43000029 ∧ encode .cfCommit = 0x33000000 := by decide

/-! ### Arithmetic (R9, R12, R120): V2.3.3, V2.3.7, V2.3.22, V2.3.40 to V2.3.42, and G2's cases -/

theorem test_incOf : incOf Config.defaultTblLen 0x473B8000 0x43DC0000 = 0x3F162FC9 ∧
    incOf Config.defaultTblLen 0x472C4400 0x447A0000 = 0x3FB9C278 := by decide +kernel
theorem test_incOf_underflows : incOf Config.defaultTblLen 0x473B8000 0x00000001 = 0x00000000 := by decide +kernel
theorem test_advance_stalls : advance Config.defaultTblLen 0x427FFFFF 0x358637BD = 0x427FFFFF := by decide +kernel
theorem test_advance_wraps : advance Config.defaultTblLen 0x42780000 0x40000000 = 0x00000000 ∧
    advance Config.defaultTblLen 0x00000000 0x43000000 = 0x00000000 := by decide +kernel
theorem test_zero_signs : fadd 0x80000000 0x80000000 = 0x80000000 ∧ fsub 0x00000000 0x00000000 = 0x00000000 ∧
    fsub 0x80000000 0x00000000 = 0x80000000 := by decide +kernel
theorem test_overflow : fadd 0x7F7FFFFF 0x7F7FFFFF = 0x7F800000 ∧ fdiv 0xBF800000 0x00000000 = 0xFF800000 := by
  decide +kernel

/-! ### The bus: V2.1.1, and the records of R26, R53 and R54 -/

theorem test_read_id : seen State.replies (served (.read 0x00) State.reset) = some [0x57544251] := by decide +kernel
theorem test_read_cfg : seen State.replies (served (.read 0x04) State.reset) = some [0x7F000040] := by decide +kernel
theorem test_read_cmd : seen record (served (.read 0x14) State.reset) = some (false, 0, 0) := by decide +kernel
theorem test_read_misaligned : seen record (served (.read 0x21) run4) = some (true, 7, 0x00000021) := by decide +kernel
theorem test_read_unmapped : seen State.replies (served (.read 0x30) run4) = some [0x00000000] := by decide +kernel
theorem test_write_partial : seen record (served (.write 0x14 0x01000000 0b0111#4) run4) =
    some (true, 7, 0x00000114) := by decide +kernel
theorem test_write_read_only : seen record (served (.write 0x20 0x00000001 0b1111#4) run4) =
    some (true, 7, 0x00000120) := by decide +kernel
theorem test_write_arg1 : seen State.arg1 (served (.write 0x1C 0x12345678 0b1111#4) run4) = some 0x12345678 := by
  decide +kernel
-- V2.1.10: E_ILLEGAL before E_MODE
theorem test_illegal_first : seen record (served (commandWrite 0x02000001) State.reset) =
    some (true, 1, 0x02000001) := by decide +kernel
theorem test_reset_event : nextOf (served .reset { run4 with tblLen := Config.defaultTblLen }) = some State.reset := by
  decide +kernel
theorem test_fetch : seen State.res0 (step (State.reset.withFetchWord 32 0x34000000)) = some 0x000000FF := by
  decide +kernel
theorem test_idle : nextOf (step run4) = some run4 := by decide +kernel

/-! ### One or two tests for each command -/

theorem test_nop : nextOf (exec .nop run4) = some run4 := by decide +kernel
-- V2.1.2, V2.1.5
theorem test_prepare : seen (fun t => (t.statusWord, t.sr, t.maxblk)) (exec .prepare { run4 with arg0 := 0x473B8000 }) =
    some (0x00000001, 0x473B8000, 0x00000040) := by decide +kernel
theorem test_prepare_refuses : seen (fun t => (t.mode, record t)) (exec .prepare { set4 with arg1 := 0x80000000 }) =
    some (.unprep, true, 4, 0x01000000) := by decide +kernel
-- V2.1.11, V2.1.9
theorem test_start : seen State.statusWord (exec .start set4) = some 0x00000002 := by decide +kernel
theorem test_start_refused : seen record (exec .start State.reset) = some (true, 2, 0x02000000) := by decide +kernel
-- V2.2.1, V2.2.6
theorem test_wtWrite : seen State.tbl (exec (.wtWrite 0) { set4 with arg0 := 0x80000000 }) = some [(0, 0x00000000)] := by
  decide +kernel
theorem test_wtWrite_range : seen record (exec (.wtWrite 9) { set4 with arg0 := 0x7FC00000 }) =
    some (true, 3, 0x20000009) := by decide +kernel
-- V2.2.12, V2.2.10
theorem test_wtRead : seen State.res0 (exec (.wtRead 3) run4) = some 0xBF800000 := by decide +kernel
theorem test_wtRead_unwritten : seen record (exec (.wtRead 2) (State.resetOf len4)) =
    some (true, 6, 0x21000002) := by decide +kernel
-- V2.3.14, V2.3.18
theorem test_oscSetfreq : seen (fun t => t.inc[5]) (exec (.oscSetfreq 5) { run4 with arg0 := 0x45BB8000 }) =
    some 0x3F000000 := by decide +kernel
theorem test_oscSetfreq_zero : seen record (exec (.oscSetfreq 5) { run4 with arg0 := 0x80000000 }) =
    some (true, 4, 0x10000005) := by decide +kernel
-- the example of R124, and the ninth sample of V2.3.25
theorem test_oscSample : seen (fun t => (t.res0, t.phase[0])) (exec (.oscSample 0) (playing 0 0x40600000 0x3F000000)) =
    some (0xBF000000, 0x00000000) := by decide +kernel
theorem test_oscSample_rounds :
    seen (fun t => (t.res0, t.phase[0])) (exec (.oscSample 0) (playing 0 0x40199999 0x3E99999A)) =
    some (0xBECCCCC8, 0x402CCCCC) := by decide +kernel
-- the examples of R125, R126, R127
theorem test_oscStop : seen (fun t => (t.phase[5], t.inc[5])) (exec (.oscStop 5) (playing 5 0x3FC00000 0x3F000000)) =
    some (0x00000000, 0x00000000) := by decide +kernel
theorem test_oscStatus : seen State.res0 (exec (.oscStatus 5) (playing 5 0x3FC00000 0x3F000000)) = some 1 ∧
    seen State.res0 (exec (.oscStatus 6) (playing 5 0x3FC00000 0x3F000000)) = some 0 := by decide +kernel
theorem test_oscRead : seen (fun t => (t.res0, t.res1)) (exec (.oscRead 5) (playing 5 0x3FC00000 0x3F000000)) =
    some (0x3FC00000, 0x3F000000) := by decide +kernel
-- the examples of R143, R144, R145
theorem test_cfWrite : seen (fun t => t.sh[5]) (exec (.cfWrite 5 0) { run4 with arg0 := 0x3F000000 }) =
    some ⟨0x3F000000, 0, 0, 0, 0⟩ := by decide +kernel
theorem test_cfWrite_nan : seen record (exec (.cfWrite 5 0) { run4 with arg0 := 0x7FC00000 }) =
    some (true, 4, 0x30000028) := by decide +kernel
theorem test_cfRead : seen State.res0 (exec (.cfRead 5 0) { run4 with sh := run4.sh.set 5 ⟨0x3F000000, 0, 0, 0, 0⟩ }) =
    some 0x3F000000 := by decide +kernel
theorem test_cfSlope : seen State.shslope (exec (.cfSlope .lc 1) run4) = some ⟨1, 0⟩ := by decide +kernel
-- the example of R146, its CF.STAT word, and V1.8.1
theorem test_cfCommit : seen State.cfStatWord (exec .cfCommit { run4 with shslope := ⟨1, 0⟩ }) = some 0x000001EC := by
  decide +kernel
theorem test_cfCommit_inactive :
    seen (fun t => t.coef[3].b0) (exec .cfCommit { run4 with sh := run4.sh.set 3 ⟨0x40800000, 0, 0, 0, 0⟩ }) =
    some 0x3F800000 := by decide +kernel
-- the table of CF.STAT words in 95_test_vectors.md 2.4: lc = 2, hc = 1
theorem test_cfStat : seen State.res0 (exec .cfStat { run4 with
    shslope := ⟨2, 1⟩, byp := ⟨#v[false, false, false, true], #v[false, false, true, true]⟩ }) = some 0x000012C8 := by
  decide +kernel
-- the example of R164
theorem test_bqProc : seen (fun t => (t.res0, t.dly.left[4]))
    (exec (.bqProc .left) { peak ⟨0x3F800000, 0, 0, 0xBF000000, 0⟩ ⟨0, 0⟩ with arg0 := 0x3F800000 }) =
    some (0x3F800000, ⟨0x3F000000, 0⟩) := by decide +kernel
theorem test_bqProc_decays : seen State.res0
    (exec (.bqProc .left) { peak ⟨0x3F800000, 0, 0, 0xBF000000, 0⟩ ⟨0x3F000000, 0⟩ with arg0 := 0 }) =
    some 0x3F000000 := by decide +kernel
-- the example of R165: two gains of 2 in LC, one of 0.5 in HC
theorem test_bqProc2 : seen (fun t => (t.res0, t.res1)) (exec .bqProc2 { run4 with
      arg0 := 0x3F800000, arg1 := 0x40400000
      coef := ((run4.coef.set 0 ⟨0x40000000, 0, 0, 0, 0⟩).set 1 ⟨0x40000000, 0, 0, 0, 0⟩).set 5 ⟨0x3F000000, 0, 0, 0, 0⟩
      byp := ⟨#v[false, false, true, true], #v[false, true, true, true]⟩ }) =
    some (0x40000000, 0x40C00000) := by decide +kernel
-- the examples of R166, R167, R168
theorem test_bqReset : seen (fun t => t.dly.left[4]) (exec .bqReset (peak ⟨0x3F800000, 0, 0, 0, 0⟩ ⟨0x3F000000, 1⟩)) =
    some ⟨0, 0⟩ := by decide +kernel
theorem test_bqRdstate : seen State.res0 (exec (.bqRdstate .left 4 .s1) (peak ⟨0x3F800000, 0, 0, 0, 0⟩ ⟨0x3F000000, 1⟩)) =
    some 0x3F000000 := by decide +kernel
theorem test_bqRdcoef :
    seen State.res0 (exec (.bqRdcoef 1 0) { run4 with coef := run4.coef.set 1 ⟨0x40000000, 0, 0, 0, 0⟩ }) =
    some 0x40000000 := by decide +kernel

/-! ### Witnesses: for each obligation with hypotheses, states and operands that meet them, clause by clause -/

theorem witness_DecodeOfEncodeIsTheCommand :
    Instr.wellFormed (.cfWrite 8 4) = true ∧ Instr.wellFormed (.bqRdstate .right 8 .s2) = true := by decide

theorem witness_EncodeOfDecodeIsTheWord : decode 0x43000031 = .ok (.bqRdstate .right 8 .s2) := by rfl

-- one word for each case of R76, and the last legal words beside them
theorem witness_IllegalWordsAreTheFourCases :
    (illegalWord 0x03000000 ∧ illegalWord 0x45000000 ∧ illegalWord 0x01000001 ∧ illegalWord 0x14000080 ∧
      illegalWord 0x21001000) ∧
    (illegalWord 0x30000048 ∧ illegalWord 0x44000005 ∧ illegalWord 0x31000080 ∧ illegalWord 0x32000008 ∧
      illegalWord 0x40000002 ∧ illegalWord 0x43000040 ∧ illegalWord 0x43000012) ∧
    ¬ illegalWord 0x00000000 ∧ ¬ illegalWord 0x30000044 ∧ ¬ illegalWord 0x43000031 := by
  refine ⟨⟨?_, ?_, ?_, ?_, ?_⟩, ⟨?_, ?_, ?_, ?_, ?_, ?_, ?_⟩, ?_, ?_, ?_⟩ <;> (unfold illegalWord; dsimp only; decide)

theorem witness_StepRunsTheDecodedCommand :
    (run4.withInputs [commandWrite 0x11000005]).pending = commandWrite 0x11000005 :: [] ∧
    decode 0x11000005 = .ok (.oscSample 5) ∧
    (run4.withInputs [commandWrite 0x11000080]).pending = commandWrite 0x11000080 :: [] ∧
    decode 0x11000080 = .error .reservedBit := by
  refine ⟨rfl, rfl, rfl, rfl⟩

theorem witness_EveryStepCompletes : State.reset.pending = [] := rfl

theorem witness_ReadReturnsTheRegister :
    (run4.withInputs [.read 0x2C]).pending = .read 0x2C :: [] ∧
    ((0x2C#8 : Byte), run4.maxblk) ∈ [(0x00#8, 0x57544251#32), (0x04#8, run4.cfgWord), (0x08#8, run4.statusWord),
      (0x0C#8, run4.err.setWidth 32), (0x10#8, run4.errcmd), (0x14#8, 0#32), (0x18#8, run4.arg0), (0x1C#8, run4.arg1),
      (0x20#8, run4.res0), (0x24#8, run4.res1), (0x28#8, run4.sr), (0x2C#8, run4.maxblk)] := by
  decide +kernel

theorem witness_MisalignedAndPartialAccessesAreRefused :
    ((0x01#8).toNat % 4 ≠ 0 ∧ (run4.withInputs [.read 0x01]).pending = .read 0x01 :: []) ∧
    (((0x17#8).toNat % 4 ≠ 0 ∨ (0b1111#4 : BitVec 4) ≠ 0b1111#4) ∧
      (run4.withInputs [.write 0x17 0 0b1111#4]).pending = .write 0x17 0 0b1111#4 :: []) ∧
    (((0x14#8).toNat % 4 ≠ 0 ∨ (0b0111#4 : BitVec 4) ≠ 0b1111#4) ∧
      (run4.withInputs [.write 0x14 0 0b0111#4]).pending = .write 0x14 0 0b0111#4 :: []) := by
  decide +kernel

theorem witness_UnmappedAndReadOnlyAccesses :
    ((0x30#8).toNat % 4 = 0 ∧ 0x30 ≤ (0x30#8).toNat ∧ (run4.withInputs [.read 0x30]).pending = .read 0x30 :: []) ∧
    ((0xFC#8).toNat % 4 = 0 ∧ 0x30 ≤ (0xFC#8).toNat ∧
      (run4.withInputs [.write 0xFC 1 0b1111#4]).pending = .write 0xFC 1 0b1111#4 :: []) ∧
    ((0x2C#8).toNat % 4 = 0 ∧ (0x2C#8 : Byte) ∈ [0x00#8, 0x04#8, 0x08#8, 0x0C#8, 0x10#8, 0x20#8, 0x24#8, 0x28#8, 0x2C#8] ∧
      (run4.withInputs [.write 0x2C 1 0b1111#4]).pending = .write 0x2C 1 0b1111#4 :: []) ∧
    (run4.withInputs [.read 0x14]).pending = .read 0x14 :: [] ∧
    ((0x2C#8).toNat % 4 = 0 ∧ (0x2C#8).toNat < 0x30 ∧ (run4.withInputs [.read 0x2C]).pending = .read 0x2C :: []) := by
  decide +kernel

theorem witness_OperandRegistersHoldWhatTheHostWrites :
    (run4.withInputs [.write 0x18 5 0b1111#4, .read 0x18]).pending = .write 0x18 5 0b1111#4 :: .read 0x18 :: [] ∧
    (run4.withInputs [.write 0x1C 5 0b1111#4, .read 0x1C]).pending = .write 0x1C 5 0b1111#4 :: .read 0x1C :: [] ∧
    ∃ t, exec .start set4 = .next t :=
  ⟨rfl, rfl, _, rfl⟩

theorem witness_CfgWordFields :
    (run4.withInputs [.read 0x04]).pending = .read 0x04 :: [] ∧
    (run4.withInputs [.write 0x04 7 0b1111#4]).pending = .write 0x04 7 0b1111#4 :: [] ∧
    step run4 = .next run4 :=
  ⟨rfl, rfl, rfl⟩

theorem witness_RecordingAFault :
    (FaultCode.bus, (7#8 : Byte)) ∈ [(FaultCode.illegal, 1#8), (.mode, 2#8), (.range, 3#8), (.operand, 4#8), (.table, 5#8),
      (.unwritten, 6#8), (.bus, 7#8)] ∧ run4.err = 0 ∧ (run4.recordFault .illegal 9).err ≠ 0 := by
  decide +kernel

theorem witness_FaultRecordIsSticky : ∃ t, step (run4.recordFault .range 9) = .next t ∧
    (run4.recordFault .range 9).pending.head? ≠ some .reset ∧ (run4.recordFault .range 9).fault = true ∧
    (run4.recordFault .range 9).err ≠ 0 :=
  ⟨_, rfl, by decide, rfl, by decide⟩

theorem witness_FaultingCommandsChangeOnlyTheRecord :
    (run4.fault = false ∧ run4.err = 0 ∧ ∃ t, exec .start run4 = .next t ∧ t.fault = true) ∧
    (State.reset.fault = false ∧ State.reset.err = 0 ∧ ∃ t, exec .prepare State.reset = .next t ∧ t.fault = true) := by
  refine ⟨⟨rfl, rfl, _, nextOf_eq (t := run4.recordFault .mode 0x02000000) (by decide +kernel), rfl⟩,
    rfl, rfl, _, nextOf_eq (t := State.reset.recordFault .operand 0x01000000) (by decide +kernel), rfl⟩

theorem witness_ModeTableDecidesEMode : allowedIn (.wtWrite 0) run4.mode = false ∧
    allowedIn .start set4.mode = true ∧ set4.err = 0 ∧ ∃ t, exec .start set4 = .next t :=
  ⟨rfl, rfl, rfl, _, rfl⟩

theorem witness_FieldsOutOfRangeAreIllegal : Instr.wellFormed (.cfRead 9 0) = false ∧
    Instr.wellFormed (.bqRdcoef 0 5) = false ∧ Instr.wellFormed (.bqRdstate .left 15 .s1) = false := by decide

theorem witness_NopChangesNothing :
    (run4.withInputs [.write 0x14 0 0b1111#4]).pending = .write 0x14 0x00000000 0b1111#4 :: [] ∧
    opcodeOf 0x00000001 = 0x00 ∧ (0x00000001 : Word) ≠ 0 ∧ opcodeOf 0x00FFFFFF = 0x00 := by
  decide +kernel

theorem witness_PrepareOpensSetup :
    (isFinite set4.arg0 = true ∧ gtZero set4.arg0 = true ∧ 0 < set4.arg1.toInt) ∧
    (isFinite 0x00000001 = true ∧ gtZero 0x00000001 = true ∧ 0 < (0x00000001#32).toInt) := by decide +kernel

theorem witness_PrepareRefusesBadOperands :
    isFinite 0x7F800000 = false ∧ gtZero 0x00000000 = false ∧ gtZero 0xC73B8000 = false ∧ (0x00000000#32).toInt ≤ 0 ∧
    (0x80000000#32).toInt ≤ 0 := by decide +kernel

theorem witness_StartEntersRun : set4.mode = .setup ∧ run4.mode ≠ .setup ∧ State.reset.mode ≠ .setup := by decide

theorem witness_ModeTransitionTable :
    ((run4.withInputs [.reset]).pending.head? = some .reset ∧ ∃ t, step (run4.withInputs [.reset]) = .next t) ∧
    (validRate set4.arg0 = true ∧ validBlock set4.arg1 = true) ∧
    (validRate run4.arg0 && validBlock run4.arg1) = false ∧
    (opcodeOf 0x01000001 = 0x01 ∧ (0x01000001 : Word) ≠ 0x01000000) ∧
    set4.mode = .setup ∧ run4.mode ≠ .setup ∧
    (Instr.bqReset ≠ .prepare ∧ Instr.bqReset ≠ .start ∧ ∃ t, exec .bqReset run4 = .next t) ∧
    (run4.mode = .run ∧ ∃ t, step (run4.withInputs [.reset]) = .next t ∧ t.mode ≠ .run) := by
  refine ⟨⟨rfl, _, rfl⟩, by decide +kernel, by decide +kernel, by decide +kernel, rfl, by decide, ⟨by decide, by decide, _, rfl⟩,
    rfl, _, rfl, by decide⟩

theorem witness_WtWriteStoresOneEntry : set4.mode = .setup ∧ (3 : Fin 4096).val < set4.tblLen.val ∧
    isFinite set4.arg0 = true := by decide +kernel

theorem witness_WtWriteChecksInOrder :
    run4.mode ≠ .setup ∧
    (set4.mode = .setup ∧ set4.tblLen.val ≤ (4 : Fin 4096).val) ∧
    (set4.mode = .setup ∧ (3 : Fin 4096).val < set4.tblLen.val ∧
      isFinite { set4 with arg0 := 0x7F800000 }.arg0 = false) := by decide +kernel

theorem witness_WtReadReturnsTheEntry :
    ((3 : Fin 4096).val < run4.tblLen.val ∧ run4.tbl.read 3 = some 0xBF800000) ∧
    run4.tblLen.val ≤ (4 : Fin 4096).val ∧
    ((3 : Fin 4096).val < set4.tblLen.val ∧ set4.tbl.read 3 = none) := by decide +kernel

theorem witness_TableIsImmutableInRun :
    (run4.mode = .run ∧ Instr.bqReset ≠ .prepare ∧ ∃ t, exec .bqReset run4 = .next t) ∧
    ({ set4 with mode := .run }.mode = .run ∧ validRate { set4 with mode := .run }.arg0 = true ∧
      validBlock { set4 with mode := .run }.arg1 = true) :=
  ⟨⟨rfl, by decide, _, rfl⟩, rfl, by decide +kernel, by decide +kernel⟩

theorem witness_SetfreqWritesTheIncrement :
    { set4 with arg0 := 0x45BB8000 }.mode ≠ .unprep ∧ isFinite 0x45BB8000 = true ∧ geZero 0x45BB8000 = true ∧
    (0x3F000000 : Word) = fdiv (fmul 0x45BB8000 (floatOfNat set4.tblLen.val)) set4.sr ∧ isFinite 0x3F000000 = true ∧
    gtZero 0x3F000000 = true := by decide +kernel

theorem witness_SetfreqRefusals :
    State.reset.mode = .unprep ∧
    (set4.mode ≠ .unprep ∧ isFinite 0x7FC00000 = false ∧ geZero 0xBF800000 = false) ∧
    isFinite (fdiv (fmul 0x7F7FFFFF (floatOfNat set4.tblLen.val)) set4.sr) = false ∧
    gtZero (fdiv (fmul 0x00000001 (floatOfNat set4.tblLen.val)) set4.sr) = false ∧
    { set4 with arg0 := 0x00000000 }.arg0 = 0x00000000 ∧ { set4 with arg0 := 0x80000000 }.arg0 = 0x80000000 := by
  decide +kernel

-- phase 3.5: floor 3, the upper entry is entry 0
theorem witness_SampleInterpolatesAndAdvances :
    (playing 0 0x40600000 0x3F000000).mode = .run ∧ (playing 0 0x40600000 0x3F000000).tblFull = true ∧
    isFinite (playing 0 0x40600000 0x3F000000).phase[0] = true ∧
    0 ≤ valOf 0x40600000 ∧ valOf 0x40600000 < (4 : Nat) * 2 ^ 149 ∧
    run4.tbl.read (floorN 0x40600000) = some 0xBF800000 ∧ run4.tbl.read ((floorN 0x40600000 + 1) % 4) = some 0 ∧
    (0x3F000000 : Word) = fsub 0x40600000 (floatOfNat (floorN 0x40600000)) ∧
    (0x3F000000 : Word) = fsub 0x3F800000 0x3F000000 := by decide +kernel

theorem witness_SampleRefusals :
    set4.mode ≠ .run ∧
    ({ set4 with mode := .run }.mode = .run ∧ 3 < { set4 with mode := .run }.tblLen.val ∧
      { set4 with mode := .run }.tbl.read 3 = none) := by decide +kernel

theorem run4_inv : run4.Inv where
  phase_ok := by intro o; left; simp [run4, set4, State.resetOf]
  inc_ok := by intro o; left; simp [run4, set4, State.resetOf]
  stopped := by intro o _; simp [run4, set4, State.resetOf]
  tbl_wf := by decide
  tbl_ok := by
    intro i v h
    have h' : Memory.read [(0, 0x00000000), (1, 0x3F800000), (2, 0x00000000), (3, 0xBF800000)] i = some v := h
    simp only [Memory.read] at h'
    have hl : run4.tblLen.val = 4 := rfl
    rw [hl]
    split at h'
    · cases h'; exact ⟨by omega, by decide +kernel, by decide⟩
    · split at h'
      · cases h'; exact ⟨by omega, by decide +kernel, by decide⟩
      · split at h'
        · cases h'; exact ⟨by omega, by decide +kernel, by decide⟩
        · split at h'
          · cases h'; exact ⟨by omega, by decide +kernel, by decide⟩
          · cases h'
  byp_ok := by intro c i j _ _; cases c <;> simp [run4, set4, State.resetOf, PerChain.get]
  sh_ok := by intro st k; simp [run4, set4, State.resetOf]; cases k <;> decide +kernel
  coef_ok := by intro st k; simp [run4, set4, State.resetOf]; cases k <;> decide +kernel
  fault_err := by simp [run4, set4, State.resetOf]
  err_code := by decide
  no_record := by intro _; rfl

/-- RUN4 with oscillator 0 at phase 3, the last integer phase. -/
theorem playing_inv : (playing 0 0x40400000 0x3F000000).Inv where
  phase_ok := by
    intro o
    by_cases h : (0 : Fin 128).val = o.val
    · rw [← Fin.ext h]; right; decide +kernel
    · have : (playing 0 0x40400000 0x3F000000).phase[o] = run4.phase[o] := Vector.getElem_set_ne (by decide) o.isLt h
      rw [this]; exact run4_inv.phase_ok o
  inc_ok := by
    intro o
    by_cases h : (0 : Fin 128).val = o.val
    · rw [← Fin.ext h]; right; decide +kernel
    · have : (playing 0 0x40400000 0x3F000000).inc[o] = run4.inc[o] := Vector.getElem_set_ne (by decide) o.isLt h
      rw [this]; exact run4_inv.inc_ok o
  stopped := by
    intro o
    by_cases h : (0 : Fin 128).val = o.val
    · rw [← Fin.ext h]; decide +kernel
    · intro _
      have : (playing 0 0x40400000 0x3F000000).phase[o] = run4.phase[o] := Vector.getElem_set_ne (by decide) o.isLt h
      rw [this]; simp [run4, set4, State.resetOf]
  tbl_wf := run4_inv.tbl_wf
  tbl_ok := run4_inv.tbl_ok
  byp_ok := run4_inv.byp_ok
  sh_ok := run4_inv.sh_ok
  coef_ok := run4_inv.coef_ok
  fault_err := run4_inv.fault_err
  err_code := run4_inv.err_code
  no_record := run4_inv.no_record

theorem witness_SampleIsExactAtIntegerPhase :
    (playing 0 0x40400000 0x3F000000).Inv ∧ (playing 0 0x40400000 0x3F000000).mode = .run ∧
    (playing 0 0x40400000 0x3F000000).tblFull = true ∧ 3 < (playing 0 0x40400000 0x3F000000).tblLen.val ∧
    (playing 0 0x40400000 0x3F000000).phase[(0 : Fin 128)] = floatOfNat 3 :=
  ⟨playing_inv, rfl, by decide +kernel, by decide, by decide +kernel⟩

theorem witness_SampleAfterStopIsEntryZero :
    run4.mode ≠ .unprep ∧ run4.Inv ∧ run4.mode = .run ∧ run4.tblFull = true ∧ run4.phase[(127 : Fin 128)] = 0 ∧
    run4.inc[(127 : Fin 128)] = 0 :=
  ⟨by decide, run4_inv, rfl, by decide +kernel, by decide +kernel, by decide +kernel⟩

-- the last phase below 4, the largest finite number, -0.0, the last exact natural number, a NaN
theorem witness_AdvanceStaysInTheTable : phaseOk len4 0x407FFFFF ∧ incOk 0x7F7FFFFF ∧ phaseOk len4 0 ∧ incOk 0 ∧
    (isFinite 0x7F7FFFFF = true ∧ 0 ≤ valOf 0x7F7FFFFF) ∧ (isFinite 0x80000000 = true ∧ 0 ≤ valOf 0x80000000) ∧
    2 ^ 24 * 2 ^ 149 ≤ magOf 0x4B800000 ∧ 2 ^ 24 ≤ 2 ^ 24 ∧ isNaN 0x7F800001 := by
  unfold phaseOk incOk isNaN; decide +kernel

theorem witness_StopSilencesOneOscillator : run4.mode ≠ .unprep ∧ set4.mode ≠ .unprep ∧ State.reset.mode = .unprep := by
  decide

theorem witness_StatusTellsPlaying : incOk (playing 5 0 0x00000001).inc[(5 : Fin 128)] ∧
    incOk (playing 5 0 0x00000001).inc[(6 : Fin 128)] := by
  unfold incOk; decide +kernel

theorem witness_CfWriteStagesOneCoefficient : isFinite { run4 with arg0 := 0x80000000 }.arg0 = true ∧
    isFinite { run4 with arg0 := 0xFF800000 }.arg0 = false ∧ Coef.a1 ≠ Coef.a2 ∧ (7 : Fin 9) ≠ 8 := by decide +kernel

theorem witness_ShadowBankDoesNotReachProcessing : run4.mode = .run := rfl

theorem witness_ProcRunsTheStagesInOrder : run4.mode = .run ∧ Channel.right ≠ .left ∧
    (((3 : Fin 9).val < 4 ∧ run4.byp.lc[(3 : Fin 9).val]? = some true) ∨
      (5 ≤ (3 : Fin 9).val ∧ run4.byp.hc[(3 : Fin 9).val - 5]? = some true)) ∧
    ¬ (((4 : Fin 9).val < 4 ∧ run4.byp.lc[(4 : Fin 9).val]? = some true) ∨
      (5 ≤ (4 : Fin 9).val ∧ run4.byp.hc[(4 : Fin 9).val - 5]? = some true)) := by decide

theorem witness_ProcTwoIsProcTwice : run4.mode = .run := rfl

theorem witness_EqualChannelsStayEqual : { run4 with arg1 := run4.arg0 }.mode = .run ∧
    { run4 with arg1 := run4.arg0 }.arg0 = { run4 with arg1 := run4.arg0 }.arg1 ∧
    { run4 with arg1 := run4.arg0 }.dly.left = { run4 with arg1 := run4.arg0 }.dly.right :=
  ⟨rfl, rfl, rfl⟩

theorem witness_ChannelsAreIndependent : run4.mode = .run := rfl

theorem witness_ResetChainIsTheIdentity : run4.mode = .run ∧ isFinite run4.arg0 = true ∧
    run4.coef = (State.resetOf run4.tblLen).coef ∧ run4.byp = (State.resetOf run4.tblLen).byp ∧
    run4.dly = (State.resetOf run4.tblLen).dly ∧ run4.arg0 ≠ 0x80000000 ∧
    (isFinite { run4 with arg0 := 0x80000000 }.arg0 = true ∧ { run4 with arg0 := 0x80000000 }.arg0 = 0x80000000) :=
  ⟨rfl, by decide +kernel, rfl, rfl, rfl, by decide, by decide +kernel⟩

theorem witness_EachStateElementHasItsWriters : (∃ t, exec .start set4 = .next t) ∧ Instr.start ≠ .prepare ∧
    (∀ o, Instr.start ≠ .oscSample o) ∧ (∀ o, Instr.start ≠ .oscStop o) ∧ (∀ o, Instr.start ≠ .oscSetfreq o) ∧
    (∀ j, Instr.start ≠ .wtWrite j) ∧ (∀ a k, Instr.start ≠ .cfWrite a k) ∧ (∀ c n, Instr.start ≠ .cfSlope c n) ∧
    Instr.start ≠ .cfCommit ∧ (∀ ch, Instr.start ≠ .bqProc ch) ∧ Instr.start ≠ .bqProc2 ∧ Instr.start ≠ .bqReset := by
  refine ⟨⟨_, rfl⟩, ?_⟩
  simp

theorem witness_ObservationChangesOnlyResults :
    ((∃ t, exec (.oscRead 5) run4 = .next t) ∧ ∃ o, Instr.oscRead 5 = .oscRead o) ∧
    ((∃ t, exec .cfStat run4 = .next t) ∧ (∀ o, Instr.cfStat ≠ .oscRead o) ∧ Instr.cfStat ≠ .bqProc2) := by
  refine ⟨⟨⟨_, rfl⟩, _, rfl⟩, ⟨_, rfl⟩, ?_⟩
  simp

theorem witness_ResetLeavesTheResetState : (run4.withInputs [.reset]).pending = .reset :: [] := rfl

theorem witness_EveryStepKeepsTheInvariants : run4.Inv ∧ (∃ t, step run4 = .next t) ∧
    (playing 0 0x40400000 0x3F000000).Inv :=
  ⟨run4_inv, ⟨_, rfl⟩, playing_inv⟩

theorem witness_RoundingIsToNearestEven :
    0 < 3 ∧ 3 * ((2 ^ 25 - 1) * 2 ^ 252) ≤ 3 * ((2 ^ 25 - 1) * 2 ^ 252) ∧
    3 * ((2 ^ 25 - 1) * 2 ^ 252) - 1 < 3 * ((2 ^ 25 - 1) * 2 ^ 252) ∧ 0x7F7FFFFE < 0x7F800000 ∧
    0x7F7FFFFE ≠ roundMag (3 * ((2 ^ 25 - 1) * 2 ^ 252) - 1) 3 := by decide +kernel

theorem witness_ArithmeticNaNsAreCanonical :
    isNaN 0xFFFFFFFF ∧ isNaN (fmul 0x00000000 0x7F800000) ∧
    (isInf 0xFF800000 ∧ isInf 0x7F800000 ∧ signBit 0xFF800000 ≠ signBit 0x7F800000) ∧
    (isInf 0xFF800000 ∧ signBit 0xFF800000 = signBit 0xFF800000) ∧ isZero 0x80000000 := by
  unfold isNaN isInf isZero; decide +kernel

-- exact results not zero: 1.0 + 1.0, -1.0 - 1.0; zero ones: 1.0 and -1.0, the zeros; divisors 3.0 and -0.0
theorem witness_OperationsRoundTheExactResultOnce :
    0x7FFFFFFF < 2 ^ 31 ∧
    (isFinite 0x3F800000 = true ∧ isFinite 0xBF800000 = true ∧ isFinite 0x80000000 = true ∧ isFinite 0x7F7FFFFF = true) ∧
    valOf 0x3F800000 + valOf 0x3F800000 ≠ 0 ∧ valOf 0xBF800000 - valOf 0x3F800000 ≠ 0 ∧
    (valOf 0x3F800000 + valOf 0xBF800000 = 0 ∧ signBit 0x3F800000 ≠ signBit 0xBF800000) ∧
    (valOf 0x80000000 + valOf 0x80000000 = 0 ∧ signBit 0x80000000 = signBit 0x80000000) ∧
    (valOf 0xBF800000 - valOf 0xBF800000 = 0 ∧ signBit 0xBF800000 = signBit 0xBF800000) ∧
    (valOf 0x80000000 - valOf 0x00000000 = 0 ∧ signBit 0x80000000 ≠ signBit 0x00000000) ∧
    magOf 0x40400000 ≠ 0 ∧ (magOf 0xBF800000 ≠ 0 ∧ magOf 0x80000000 = 0) := by decide +kernel

end Sys2Proof.Tests
end

section
/-! The rounding of R9 and R11. `roundMag` picks a number of the grid of R8 that is a nearest one: `NearestEven` says so by the
midpoints to its two neighbours, and everything later proofs need of rounding follows from it. -/

namespace Sys2Proof.Machine

/-! ### The finite magnitudes in order -/

/-- The step from one magnitude to the next is the unit of the lower one's exponent (R8). -/
theorem magBits_succ (r : Nat) : magBits (r + 1) = magBits r + 2 ^ (r / 2 ^ 23 - 1) := by
  have hr : (r + 1) / 2 ^ 23 = r / 2 ^ 23 ∧ (r + 1) % 2 ^ 23 = r % 2 ^ 23 + 1 ∨
      (r + 1) / 2 ^ 23 = r / 2 ^ 23 + 1 ∧ (r + 1) % 2 ^ 23 = 0 ∧ r % 2 ^ 23 = 2 ^ 23 - 1 := by omega
  unfold magBits
  obtain ⟨hexp, hfrac⟩ | ⟨hexp, hfrac, hlast⟩ := hr
  · rw [hexp, hfrac]
    split
    · next h0 => rw [h0]; rfl
    · ring
  · rw [hexp, hfrac, hlast, if_neg (Nat.succ_ne_zero _), Nat.add_sub_cancel]
    split
    · next h0 => rw [h0]; omega
    · next h0 =>
      obtain ⟨e, he⟩ := Nat.exists_eq_succ_of_ne_zero h0
      rw [he, Nat.succ_sub_one, Nat.succ_eq_add_one, pow_succ]
      ring

theorem magBits_strictMono : StrictMono magBits :=
  strictMono_nat_of_lt_succ fun r => by rw [magBits_succ]; exact Nat.lt_add_of_pos_right (by positivity)

theorem mul_magBits_lt {d v w : Nat} (hd : 0 < d) (h : v < w) : d * magBits v < d * magBits w :=
  Nat.mul_lt_mul_of_pos_left (magBits_strictMono h) hd

theorem mul_magBits_le (d : Nat) {v w : Nat} (h : v ≤ w) : d * magBits v ≤ d * magBits w :=
  Nat.mul_le_mul_left d (magBits_strictMono.monotone h)

/-- The magnitude of the infinity's low 31 bits, read as if they were a number: 2^24 * 2^104 = 2^128. -/
theorem magBits_infBits : magBits infBits = 2 ^ 24 * 2 ^ 253 := by decide +kernel

/-- The largest finite magnitude, (2^24 - 1) * 2^104 in units of 2^-149. -/
theorem magBits_infBits_pred : magBits (infBits - 1) = (2 ^ 24 - 1) * 2 ^ 253 := by decide +kernel

/-- Counting `c` steps up from the start of grid `k` gives the magnitude `c * 2^k`, while the grid's step is `2^k`. -/
theorem magBits_grid {k c : Nat} (hlt : c < 2 ^ 24) (hle : k = 0 ∨ 2 ^ 23 ≤ c) :
    magBits (k * 2 ^ 23 + c) = c * 2 ^ k ∧ magBits (k * 2 ^ 23 + c + 1) = (c + 1) * 2 ^ k := by
  have hc : magBits (k * 2 ^ 23 + c) = c * 2 ^ k ∧ (k * 2 ^ 23 + c) / 2 ^ 23 - 1 = k := by
    by_cases h : 2 ^ 23 ≤ c
    · have hexp : (k * 2 ^ 23 + c) / 2 ^ 23 = k + 1 := by omega
      have hfrac : 2 ^ 23 + (k * 2 ^ 23 + c) % 2 ^ 23 = c := by omega
      rw [magBits, hexp, hfrac, if_neg (Nat.succ_ne_zero k)]
      exact ⟨rfl, rfl⟩
    · obtain rfl : k = 0 := hle.resolve_right h
      have hexp : (0 * 2 ^ 23 + c) / 2 ^ 23 = 0 := by omega
      rw [magBits, hexp, if_pos rfl]
      simp
  refine ⟨hc.1, ?_⟩
  rw [magBits_succ, hc.1, hc.2]
  ring

/-! ### Nearest, ties to even -/

/-- `u` are the low bits of a magnitude nearest to `n / d`, and even ones where the next number up or down is as near: twice
`n / d` lies between the sums of that magnitude and its neighbours. -/
structure NearestEven (n d u : Nat) : Prop where
  le_up : 2 * n ≤ d * magBits u + d * magBits (u + 1)
  tie_up : 2 * n = d * magBits u + d * magBits (u + 1) → u % 2 = 0
  ge_down : ∀ v, v + 1 = u → d * magBits v + d * magBits u ≤ 2 * n
  tie_down : ∀ v, v + 1 = u → 2 * n = d * magBits v + d * magBits u → u % 2 = 0

/-- The grid's quotient has at most 24 bits, and 24 of them above the subnormal grid (R9, R11). -/
theorem quotient_gridExp (n d : Nat) :
    n / (d * 2 ^ gridExp n d) < 2 ^ 24 ∧ (gridExp n d = 0 ∨ 2 ^ 23 ≤ n / (d * 2 ^ gridExp n d)) := by
  rw [← Nat.div_div_eq_div_mul, gridExp]
  by_cases h : (n / d).log2 ≤ 23
  · rw [Nat.sub_eq_zero_of_le h, pow_zero, Nat.div_one]
    exact ⟨lt_of_lt_of_le Nat.lt_log2_self (Nat.pow_le_pow_right (by norm_num) (by omega)), .inl rfl⟩
  · have hne : n / d ≠ 0 := by rintro h0; simp [h0] at h
    have hlo := Nat.log2_self_le hne
    have hhi := Nat.lt_log2_self (n := n / d)
    obtain ⟨k, hk⟩ : ∃ k, (n / d).log2 = 23 + k := ⟨(n / d).log2 - 23, by omega⟩
    rw [hk, pow_add] at hlo
    rw [hk, Nat.add_right_comm, pow_add] at hhi
    rw [hk, Nat.add_sub_cancel_left]
    exact ⟨(Nat.div_lt_iff_lt_mul (by positivity)).2 hhi, .inr ((Nat.le_div_iff_mul_le (by positivity)).2 hlo)⟩

theorem roundDiv_eq (n d : Nat) :
    roundDiv n d = if 2 * (n % d) < d ∨ (2 * (n % d) = d ∧ n / d % 2 = 0) then n / d else n / d + 1 := rfl

/-- `roundDiv` on a grid of step `2^k` picks the nearer end of the step that `n / d` lies in, the even one in the middle. -/
theorem nearestEven_roundDiv {n d k : Nat} (hd : 0 < d) (hlt : n / (d * 2 ^ k) < 2 ^ 24)
    (hle : k = 0 ∨ 2 ^ 23 ≤ n / (d * 2 ^ k)) : NearestEven n d (k * 2 ^ 23 + roundDiv n (d * 2 ^ k)) := by
  obtain ⟨hlo, hhi⟩ := magBits_grid hlt hle
  have hD : 0 < d * 2 ^ k := by positivity
  have hmod := Nat.mod_lt n hD
  have hn := Nat.div_add_mod' n (d * 2 ^ k)
  rw [roundDiv_eq]
  generalize n / (d * 2 ^ k) = q at *
  generalize n % (d * 2 ^ k) = r at *
  have elo : d * magBits (k * 2 ^ 23 + q) = q * (d * 2 ^ k) := by rw [hlo]; ring
  have ehi : d * magBits (k * 2 ^ 23 + q + 1) = q * (d * 2 ^ k) + d * 2 ^ k := by rw [hhi]; ring
  split
  · next hdown =>
    have hpred (v : Nat) (hv : v + 1 = k * 2 ^ 23 + q) := mul_magBits_lt hd (Nat.lt_of_succ_le hv.le)
    constructor
    case le_up => omega
    case tie_up => omega
    case ge_down => intro v hv; have := hpred v hv; omega
    case tie_down => intro v hv; have := hpred v hv; omega
  · next hup =>
    have hsucc := mul_magBits_lt hd (Nat.lt_add_one (k * 2 ^ 23 + q + 1))
    rw [← add_assoc]
    constructor
    case le_up => omega
    case tie_up => omega
    case ge_down => rintro v ⟨rfl⟩; omega
    case tie_down => rintro v ⟨rfl⟩; omega

/-- The threshold of R9 is the midpoint of the last finite magnitude and the next one, and the last finite number is odd, so
that the midpoint rounds up: a nearest number is finite exactly below the threshold. -/
theorem NearestEven.lt_infBits_iff {n d u : Nat} (hd : 0 < d) (h : NearestEven n d u) :
    u < infBits ↔ n < d * ((2 ^ 25 - 1) * 2 ^ 252) := by
  have hmid : d * magBits (infBits - 1) + d * magBits infBits = 2 * (d * ((2 ^ 25 - 1) * 2 ^ 252)) := by
    rw [magBits_infBits_pred, magBits_infBits]; ring
  constructor
  · intro hu
    have hle := h.le_up
    have htie := h.tie_up
    by_contra hn
    obtain rfl | hlt : u = infBits - 1 ∨ u < infBits - 1 := by omega
    · rw [Nat.sub_add_cancel (by decide)] at hle htie
      exact absurd (htie (by omega)) (by decide)
    · have hu' := mul_magBits_lt hd hlt
      have hs := mul_magBits_le d (show u + 1 ≤ infBits by omega)
      omega
  · intro hn
    by_contra hu
    obtain ⟨v, rfl⟩ : ∃ v, u = v + 1 := ⟨u - 1, by unfold infBits at hu; omega⟩
    have hge := h.ge_down v rfl
    have hv := mul_magBits_le d (show infBits - 1 ≤ v by omega)
    have hv' := mul_magBits_le d (show infBits ≤ v + 1 by omega)
    omega

/-- A nearest number is at least as near as any other, and even where another is as near. -/
theorem NearestEven.isNearest {n d u r : Nat} (hd : 0 < d) (h : NearestEven n d u) (hr : r ≠ u) :
    ((n : Int) - d * magBits u).natAbs ≤ ((n : Int) - d * magBits r).natAbs ∧
    (((n : Int) - d * magBits u).natAbs = ((n : Int) - d * magBits r).natAbs → u % 2 = 0) := by
  rw [← Nat.cast_mul, ← Nat.cast_mul]
  obtain hr | hr := Nat.lt_or_gt_of_ne hr
  · obtain ⟨v, rfl⟩ := Nat.exists_eq_add_one_of_ne_zero (Nat.ne_zero_of_lt hr)
    have hge := h.ge_down v rfl
    have htie := h.tie_down v rfl
    have hrv := mul_magBits_le d (Nat.le_of_lt_succ hr)
    have hvu := mul_magBits_lt hd (Nat.lt_add_one v)
    constructor <;> omega
  · have hle_up := h.le_up
    have htie := h.tie_up
    have hur : d * magBits (u + 1) ≤ d * magBits r := mul_magBits_le d hr
    have hlt_up := mul_magBits_lt hd (Nat.lt_add_one u)
    constructor <;> omega

/-- What `roundMag` rounds to, before the cap at infinity. -/
theorem roundMag_spec (n : Nat) {d : Nat} (hd : 0 < d) :
    ∃ u, NearestEven n d u ∧ roundMag n d = min u infBits :=
  ⟨_, nearestEven_roundDiv hd (quotient_gridExp n d).1 (quotient_gridExp n d).2, rfl⟩

/-- A magnitude rounds to a finite number exactly below the threshold of R9. -/
theorem roundMag_lt_infBits_iff (n : Nat) {d : Nat} (hd : 0 < d) :
    roundMag n d < infBits ↔ n < d * ((2 ^ 25 - 1) * 2 ^ 252) := by
  obtain ⟨u, hu, e⟩ := roundMag_spec n hd
  rw [e, ← hu.lt_infBits_iff hd, min_lt_iff, or_iff_left (lt_irrefl _)]

theorem roundMag_le_infBits (n d : Nat) : roundMag n d ≤ infBits := Nat.min_le_right _ _

/-- The rounding to a finite number is a nearest one. -/
theorem nearestEven_roundMag {n d : Nat} (hd : 0 < d) (h : roundMag n d < infBits) : NearestEven n d (roundMag n d) := by
  obtain ⟨u, hu, e⟩ := roundMag_spec n hd
  rwa [e, min_eq_left (by omega)]

/-- The magnitude of the positive finite number with given low bits. -/
theorem magOf_packSign (s : Bool) {r : Nat} (h : r < infBits) : magOf (packSign s r) = magBits r := by
  rw [magOf, f32_packSign s h]

/-- Settles O58: `roundMag` gives a nearest number of the grid, and its cap at infinity bites exactly from the threshold on. -/
theorem roundingIsToNearestEven : Obligations.RoundingIsToNearestEven := by
  intro n d hd
  constructor
  · intro hn
    refine le_antisymm (roundMag_le_infBits n d) (not_lt.1 fun hlt => ?_)
    exact not_lt.2 hn ((roundMag_lt_infBits_iff n hd).1 hlt)
  · intro hn
    have hfin := (roundMag_lt_infBits_iff n hd).2 hn
    refine ⟨hfin, fun r hr hne => ?_⟩
    rw [magOf_packSign false hfin, magOf_packSign false hr]
    exact (nearestEven_roundMag hd hfin).isNearest hd hne

end Sys2Proof.Machine
end

section
/-! The operations of R9 on finite operands: one rounding of the exact signed result. -/

namespace Sys2Proof.Machine

/-! ### The fields of a word (R8) -/

theorem signBit_eq_getLsbD (w : Word) : signBit w = w.getLsbD 31 := by
  rw [signBit, ← BitVec.msb_eq_getLsbD_last, BitVec.msb_eq_decide]

theorem expField_eq_extractLsb (w : Word) : expField w = (w.extractLsb' 23 8).toNat := by
  rw [expField, BitVec.extractLsb'_toNat, Nat.shiftRight_eq_div_pow]

theorem fracField_eq_extractLsb (w : Word) : fracField w = (w.extractLsb' 0 23).toNat := by
  rw [fracField, BitVec.extractLsb'_toNat, Nat.shiftRight_zero]

theorem magOf_eq_fields {w : Word} (h : isFinite w = true) :
    magOf w = if expField w = 0 then fracField w else (2 ^ 23 + fracField w) * 2 ^ (expField w - 1) := by
  have he : expField w ≠ 255 := of_decide_eq_true h
  by_cases h0 : expField w = 0 <;> simp [magOf, f32, he, h0]

/-! ### Signed magnitudes -/

/-- The value of `.fin s m` in units of 2^-149. -/
def signedMag (s : Bool) (m : Nat) : Int := if s then -(m : Int) else m

theorem valOf_eq (w : Word) : valOf w = signedMag (signBit w) (magOf w) := rfl

@[simp] theorem signedMag_true (m : Nat) : signedMag true m = -(m : Int) := rfl

@[simp] theorem signedMag_false (m : Nat) : signedMag false m = m := rfl

theorem signedMag_not (s : Bool) (m : Nat) : signedMag (!s) m = -signedMag s m := by
  cases s <;> simp

theorem signedMag_eq_zero {s : Bool} {m : Nat} : signedMag s m = 0 ↔ m = 0 := by
  cases s <;> simp

theorem signedMag_natAbs (s : Bool) (m : Nat) : (signedMag s m).natAbs = m := by
  cases s <;> simp

theorem signedMag_add_same (s : Bool) (m n : Nat) : signedMag s m + signedMag s n = signedMag s (m + n) := by
  cases s <;> simp; omega

theorem signedMag_add_not (s : Bool) {m n : Nat} (h : n ≤ m) :
    signedMag s m + signedMag (!s) n = signedMag s (m - n) := by
  cases s <;> simp <;> omega

/-- The sign of a value that is not zero. -/
theorem decide_signedMag_lt_zero (s : Bool) {m : Nat} (h : m ≠ 0) : decide (signedMag s m < 0) = s := by
  cases s
  · exact decide_eq_false (Int.natCast_nonneg m).not_gt
  · simp [Nat.pos_of_ne_zero h]

/-! ### Sums and differences -/

theorem roundWord_zero (s : Bool) : roundWord s 0 1 = packSign s 0 := by
  rw [roundWord, ← magBits_zero, roundMag_magBits_one (by decide), magBits_zero]

/-- The sum of two finite numbers is the exact sum rounded once; a zero sum is negative when both operands are (R9). -/
theorem addFin_eq_roundWord (s : Bool) (m : Nat) (t : Bool) (n : Nat) :
    ∃ u k, signedMag s m + signedMag t n = signedMag u k ∧ addFin s m t n = roundWord u k 1 ∧ (k = 0 → u = (s && t)) := by
  unfold addFin
  by_cases hst : s = t
  · subst hst
    exact ⟨s, m + n, signedMag_add_same s m n, if_pos rfl, fun _ => (Bool.and_self s).symm⟩
  · obtain rfl : t = !s := by cases s <;> cases t <;> simp_all
    rw [if_neg hst]
    obtain hlt | rfl | hlt := Nat.lt_trichotomy n m
    · exact ⟨s, m - n, signedMag_add_not s hlt.le, if_pos hlt, by omega⟩
    · refine ⟨false, 0, ?_, ?_, fun _ => (Bool.and_not_self s).symm⟩
      · rw [signedMag_add_not s le_rfl, Nat.sub_self, signedMag_eq_zero.2 rfl, signedMag_eq_zero.2 rfl]
      · rw [if_neg (lt_irrefl n), if_neg (lt_irrefl n), roundWord_zero]; rfl
    · refine ⟨!s, n - m, ?_, ?_, by omega⟩
      · have := signedMag_add_not (!s) hlt.le
        rwa [Bool.not_not, add_comm] at this
      · rw [if_neg hlt.not_gt, if_pos hlt]

theorem addFin_of_ne_zero {s t : Bool} {m n : Nat} (h : signedMag s m + signedMag t n ≠ 0) :
    addFin s m t n = packSign (decide (signedMag s m + signedMag t n < 0))
      (roundMag (signedMag s m + signedMag t n).natAbs 1) := by
  obtain ⟨u, k, hsum, hadd, -⟩ := addFin_eq_roundWord s m t n
  rw [hsum] at h ⊢
  rw [hadd, decide_signedMag_lt_zero u (mt signedMag_eq_zero.2 h), signedMag_natAbs, roundWord]

theorem addFin_of_eq_zero {s t : Bool} {m n : Nat} (h : signedMag s m + signedMag t n = 0) :
    addFin s m t n = packSign (s && t) 0 := by
  obtain ⟨u, k, hsum, hadd, hzero⟩ := addFin_eq_roundWord s m t n
  obtain rfl : k = 0 := signedMag_eq_zero.1 (hsum.symm.trans h)
  rw [hadd, hzero rfl, roundWord_zero]

theorem packSign_zero (s : Bool) : packSign s 0 = if s then 0x80000000 else 0x00000000 := by cases s <;> rfl

theorem packSign_infBits (s : Bool) : packSign s infBits = if s then 0xFF800000 else 0x7F800000 := by cases s <;> rfl

section
variable {a b : Word} (ha : isFinite a = true) (hb : isFinite b = true)
include ha hb

theorem fadd_of_finite : fadd a b = addFin (signBit a) (magOf a) (signBit b) (magOf b) := by
  rw [fadd, f32_eq_fin ha, f32_eq_fin hb, addF]

theorem fsub_of_finite : fsub a b = addFin (signBit a) (magOf a) (!signBit b) (magOf b) := by
  rw [fsub, f32_eq_fin ha, f32_eq_fin hb, F32.neg, addF]

theorem fmul_of_finite :
    fmul a b = packSign (signBit a != signBit b) (roundMag (magOf a * magOf b) (2 ^ 149)) := by
  simp only [fmul, f32_eq_fin ha, f32_eq_fin hb, roundWord]

theorem fdiv_of_finite (h0 : magOf b ≠ 0) :
    fdiv a b = packSign (signBit a != signBit b) (roundMag (magOf a * 2 ^ 149) (magOf b)) := by
  simp only [fdiv, f32_eq_fin ha, f32_eq_fin hb, if_neg h0, roundWord]

theorem fdiv_by_zero (ha0 : magOf a ≠ 0) (hb0 : magOf b = 0) :
    fdiv a b = packSign (signBit a != signBit b) infBits := by
  simp only [fdiv, f32_eq_fin ha, f32_eq_fin hb, if_pos hb0, if_neg ha0]

end

theorem valOf_sub (a b : Word) :
    valOf a - valOf b = signedMag (signBit a) (magOf a) + signedMag (!signBit b) (magOf b) := by
  rw [signedMag_not, valOf_eq, valOf_eq, sub_eq_add_neg]

/-- Settles O60: a finite operand is its sign and its magnitude, and each operation then is the one rounding that the lemmas
above give for it. -/
theorem operationsRoundTheExactResultOnce : Obligations.OperationsRoundTheExactResultOnce := by
  refine ⟨fun w => ⟨signBit_eq_getLsbD w, expField_eq_extractLsb w, fracField_eq_extractLsb w⟩,
    fun s r => packSign_toNat s, fun w => magOf_eq_fields, fun a b ha hb => ?_⟩
  rw [fadd_of_finite ha hb, fsub_of_finite ha hb, valOf_sub a b, valOf_eq a, valOf_eq b]
  refine ⟨addFin_of_ne_zero, fun h hs => ?_, fun h hs => ?_, addFin_of_ne_zero, fun h hs => ?_, fun h hs => ?_,
    fmul_of_finite ha hb, fdiv_of_finite ha hb, fun ha0 hb0 => ?_⟩
  · rw [addFin_of_eq_zero h, Bool.eq_not.2 hs, Bool.not_and_self]; rfl
  · rw [addFin_of_eq_zero h, ← hs, Bool.and_self, packSign_zero]
  · rw [addFin_of_eq_zero h, ← hs, Bool.and_not_self]; rfl
  · rw [addFin_of_eq_zero h, ← Bool.eq_not.2 hs, Bool.and_self, packSign_zero]
  · rw [fdiv_by_zero ha hb ha0 hb0, packSign_infBits]
    by_cases hs : signBit a = signBit b <;> simp [hs]

end Sys2Proof.Machine
end

section
/-! The NaNs of R9 and R10: which words stand for no number, and which operations give one. -/

namespace Sys2Proof.Machine

theorem f32_of_isNaN {w : Word} (h : isNaN w) : f32 w = .nan := by
  rw [f32, if_pos h.1, if_neg h.2]

theorem f32_of_isInf {w : Word} (h : isInf w) : f32 w = .inf (signBit w) := by
  obtain rfl | rfl := h <;> decide

theorem f32_of_isZero {w : Word} (h : isZero w) : f32 w = .fin (signBit w) 0 := by
  obtain rfl | rfl := h <;> decide

/-- If the word is a NaN at all, it is the canonical one (R10). -/
def NaNIsCanonical (w : Word) : Prop := isNaN w → w = qnan

theorem nanIsCanonical_qnan : NaNIsCanonical qnan := fun _ => rfl

/-- A word whose low bits are at most those of an infinity is no NaN. -/
theorem nanIsCanonical_packSign (s : Bool) {r : Nat} (h : r ≤ infBits) : NaNIsCanonical (packSign s r) := by
  rintro ⟨hexp, hfrac⟩
  unfold infBits at h
  rw [expField_eq, lowBits_packSign s (by omega)] at hexp
  rw [fracField_eq, lowBits_packSign s (by omega)] at hfrac
  omega

theorem nanIsCanonical_roundWord (s : Bool) (n d : Nat) : NaNIsCanonical (roundWord s n d) :=
  nanIsCanonical_packSign s (roundMag_le_infBits n d)

theorem nanIsCanonical_inf (s : Bool) : NaNIsCanonical (packSign s infBits) := nanIsCanonical_packSign s le_rfl

theorem nanIsCanonical_addF (x y : F32) : NaNIsCanonical (addF x y) := by
  unfold addF
  split
  · exact nanIsCanonical_qnan
  · exact nanIsCanonical_qnan
  · exact nanIsCanonical_qnan
  · split
    · exact nanIsCanonical_inf _
    · exact nanIsCanonical_qnan
  · exact nanIsCanonical_inf _
  · exact nanIsCanonical_inf _
  · next s m t n =>
    obtain ⟨u, k, -, hadd, -⟩ := addFin_eq_roundWord s m t n
    rw [hadd]
    exact nanIsCanonical_roundWord u k 1

theorem nanIsCanonical_fmul (a b : Word) : NaNIsCanonical (fmul a b) := by
  unfold fmul
  split
  · exact nanIsCanonical_qnan
  · exact nanIsCanonical_qnan
  · exact nanIsCanonical_qnan
  · exact nanIsCanonical_inf _
  · split
    · exact nanIsCanonical_qnan
    · exact nanIsCanonical_inf _
  · split
    · exact nanIsCanonical_qnan
    · exact nanIsCanonical_inf _
  · exact nanIsCanonical_roundWord _ _ _

theorem nanIsCanonical_fdiv (a b : Word) : NaNIsCanonical (fdiv a b) := by
  unfold fdiv
  split
  · exact nanIsCanonical_qnan
  · exact nanIsCanonical_qnan
  · exact nanIsCanonical_qnan
  · exact nanIsCanonical_qnan
  · exact nanIsCanonical_inf _
  · exact nanIsCanonical_packSign _ (Nat.zero_le _)
  · split
    · split
      · exact nanIsCanonical_qnan
      · exact nanIsCanonical_inf _
    · exact nanIsCanonical_roundWord _ _ _

/-- A NaN operand gives the canonical NaN, whichever side it stands on. -/
theorem nan_operand_gives_qnan {a b : Word} (h : isNaN a ∨ isNaN b) :
    fadd a b = qnan ∧ fsub a b = qnan ∧ fmul a b = qnan ∧ fdiv a b = qnan := by
  unfold fadd fsub fmul fdiv
  obtain h | h := h <;> rw [f32_of_isNaN h]
  · exact ⟨rfl, rfl, rfl, rfl⟩
  · cases f32 a <;> exact ⟨rfl, rfl, rfl, rfl⟩

theorem addF_inf_inf (s t : Bool) : addF (.inf s) (.inf t) = if s = t then packSign s infBits else qnan := rfl

/-- Settles O59: the invalid operations by the arm of each operation that their operands select. -/
theorem arithmeticNaNsAreCanonical : Obligations.ArithmeticNaNsAreCanonical := by
  refine ⟨fun a b => nan_operand_gives_qnan,
    fun a b => ⟨nanIsCanonical_addF _ _, nanIsCanonical_addF _ _, nanIsCanonical_fmul a b, nanIsCanonical_fdiv a b⟩,
    fun a b ha hb => ⟨fun hs => ?_, fun hs => ?_, ?_⟩, fun a b ha hb => ⟨?_, ?_⟩, fun a b ha hb => ?_⟩
  · rw [fadd, f32_of_isInf ha, f32_of_isInf hb, addF_inf_inf, if_neg hs]; rfl
  · rw [fsub, f32_of_isInf ha, f32_of_isInf hb, F32.neg, addF_inf_inf, hs, if_neg (Bool.self_ne_not _)]; rfl
  · rw [fdiv, f32_of_isInf ha, f32_of_isInf hb]; rfl
  · rw [fmul, f32_of_isZero ha, f32_of_isInf hb]; rfl
  · rw [fmul, f32_of_isZero ha, f32_of_isInf hb]; rfl
  · rw [fdiv, f32_of_isZero ha, f32_of_isZero hb]; rfl

end Sys2Proof.Machine
end

section
/-! The helpers of R12, and the advance of R122 on the phases and increments that R41 allows. -/

namespace Sys2Proof.Machine

/-! ### Comparisons with zero are those of the value -/

theorem gtZero_iff {w : Word} (h : isFinite w = true) : gtZero w = true ↔ 0 < valOf w := by
  rw [gtZero, f32_eq_fin h, valOf_eq]
  cases signBit w
  · simp [Nat.pos_iff_ne_zero]
  · simp

theorem geZero_iff {w : Word} (h : isFinite w = true) : geZero w = true ↔ 0 ≤ valOf w := by
  rw [geZero, f32_eq_fin h, valOf_eq]
  cases signBit w <;> simp

theorem neZero_iff {w : Word} (h : isFinite w = true) : neZero w = true ↔ valOf w ≠ 0 := by
  rw [neZero, f32_eq_fin h, valOf_eq, Ne, signedMag_eq_zero, decide_eq_true_eq]

theorem compare_of_isNaN {w : Word} (h : isNaN w) : gtZero w = false ∧ geZero w = false ∧ neZero w = true := by
  rw [gtZero, geZero, neZero, f32_of_isNaN h]
  exact ⟨rfl, rfl, rfl⟩

/-! ### The helpers of R12 -/

theorem wrapL_exact (len : TblLen) {w : Word} (hf : isFinite w = true) (hv : 0 ≤ valOf w) :
    isFinite (wrapL len w) = true ∧ signBit (wrapL len w) = false ∧
    magOf (wrapL len w) = magOf w % (len.val * 2 ^ 149) := by
  obtain ⟨r, hr, hw, hmag⟩ := wrapL_spec len hf ((geZero_iff hf).2 hv)
  rw [hw, magOf_packSign false hr]
  exact ⟨isFinite_packSign false hr, signBit_packSign false (by unfold infBits at hr; omega), hmag⟩

theorem le_floorN_iff (w : Word) (n : Nat) : n ≤ floorN w ↔ n * 2 ^ 149 ≤ magOf w :=
  Nat.le_div_iff_mul_le (by positivity)

theorem floatOfNat_exact {n : Nat} (h : n ≤ 2 ^ 24) :
    isFinite (floatOfNat n) = true ∧ signBit (floatOfNat n) = false ∧ magOf (floatOfNat n) = n * 2 ^ 149 := by
  obtain ⟨r, hr, e⟩ : ∃ r, r < infBits ∧ magBits r = n * 2 ^ 149 := by
    obtain h | rfl := Nat.lt_or_eq_of_le h
    · exact magBits_surj h (by norm_num)
    · rw [show 2 ^ 24 * 2 ^ 149 = 2 ^ 23 * 2 ^ 150 by norm_num]
      exact magBits_surj (by norm_num) (by norm_num)
  rw [floatOfNat, ← e, roundWord, roundMag_magBits_one hr, magOf_packSign false hr]
  exact ⟨isFinite_packSign false hr, signBit_packSign false (by unfold infBits at hr; omega), rfl⟩

/-! ### The advance -/

theorem sign_of_gtZero {w : Word} (hf : isFinite w = true) (h : gtZero w = true) : signBit w = false := by
  rw [gtZero_of_finite hf, Bool.and_eq_true, Bool.not_eq_true'] at h
  exact h.1

/-- An increment is a finite number of positive sign. -/
theorem incOk_fields {w : Word} (h : incOk w) : isFinite w = true ∧ signBit w = false := by
  obtain rfl | ⟨hf, hg⟩ := h
  · decide
  · exact ⟨hf, sign_of_gtZero hf hg⟩

theorem phaseOk_fields {len : TblLen} {w : Word} (h : phaseOk len w) :
    isFinite w = true ∧ signBit w = false ∧ magOf w < len.val * 2 ^ 149 := by
  obtain rfl | ⟨hf, hg, hlt⟩ := h
  · exact ⟨by decide, by decide, Nat.mul_pos len.pos (by positivity)⟩
  · exact ⟨hf, sign_of_gtZero hf hg, hlt⟩

/-- A finite number of positive sign below L is +0 or a positive number below L. -/
theorem phaseOk_of_fields {len : TblLen} {w : Word} (hf : isFinite w = true) (hs : signBit w = false)
    (hlt : magOf w < len.val * 2 ^ 149) : phaseOk len w := by
  by_cases h0 : lowBits w = 0
  · left
    rw [← packSign_self w, hs, h0]
    rfl
  · exact .inr ⟨hf, by rw [gtZero_of_finite hf, hs]; simpa using h0, hlt⟩

theorem magOf_le_of_finite {w : Word} (h : isFinite w = true) : magOf w ≤ (2 ^ 24 - 1) * 2 ^ 253 := by
  rw [magOf_of_finite h, ← magBits_infBits_pred]
  exact magBits_strictMono.monotone (Nat.le_sub_one_of_lt ((isFinite_iff w).1 h))

/-- A legal phase and a legal increment have a finite sum: a phase is below 2^12, less than half the step at the largest
finite number, so that the sum does not reach the threshold of R9 (R128). -/
theorem fadd_phase_inc {len : TblLen} {p x : Word} (hp : phaseOk len p) (hx : incOk x) :
    isFinite (fadd p x) = true ∧ 0 ≤ valOf (fadd p x) := by
  obtain ⟨hpf, hps, hplt⟩ := phaseOk_fields hp
  obtain ⟨hxf, hxs⟩ := incOk_fields hx
  have hround : fadd p x = packSign false (roundMag (magOf p + magOf x) 1) := by
    rw [fadd_of_finite hpf hxf, hps, hxs]; rfl
  have hfin : roundMag (magOf p + magOf x) 1 < infBits := by
    have hp12 : len.val * 2 ^ 149 ≤ 4096 * 2 ^ 149 := Nat.mul_le_mul_right _ len.le
    have hxmax := magOf_le_of_finite hxf
    rw [roundMag_lt_infBits_iff _ Nat.one_pos]
    omega
  have hff : isFinite (fadd p x) = true := by rw [hround]; exact isFinite_packSign false hfin
  refine ⟨hff, ?_⟩
  rw [valOf_eq, hround, signBit_packSign false (by unfold infBits at hfin; omega), signedMag_false]
  exact Int.natCast_nonneg _

theorem phaseOk_wrapL (len : TblLen) {w : Word} (hf : isFinite w = true) (hv : 0 ≤ valOf w) : phaseOk len (wrapL len w) := by
  obtain ⟨hwf, hws, hmag⟩ := wrapL_exact len hf hv
  refine phaseOk_of_fields hwf hws ?_
  rw [hmag]
  exact Nat.mod_lt _ (Nat.mul_pos len.pos (by positivity))

/-- The advance keeps the phase in the table (R41.1, R128). -/
theorem phaseOk_advance {len : TblLen} {p x : Word} (hp : phaseOk len p) (hx : incOk x) : phaseOk len (advance len p x) :=
  let ⟨hf, hv⟩ := fadd_phase_inc hp hx
  phaseOk_wrapL len hf hv

/-- Settles O34: the sum that is wrapped is finite and not negative, and on such numbers the helpers of R12 are exact. -/
theorem advanceStaysInTheTable : Obligations.AdvanceStaysInTheTable :=
  ⟨fun _ _ _ hp hx => ⟨phaseOk_advance hp hx, rfl⟩,
    fun len _ => wrapL_exact len,
    fun x _ _ => ⟨(le_floorN_iff x _).1 le_rfl, fun n => (le_floorN_iff x n).2⟩,
    fun _ => floatOfNat_exact,
    fun _ => decide_eq_true_iff,
    fun _ h => ⟨gtZero_iff h, geZero_iff h, neZero_iff h⟩,
    fun _ => compare_of_isNaN,
    by decide,
    by decide⟩

end Sys2Proof.Machine
end

section
/-! What a command and a step can do, said once: `exec_cases` for a command, `step_preserves` for a step. -/

namespace Sys2Proof.Machine

/-! ### What a commit leaves unchanged (R146, R169) -/

@[simp] theorem State.committed_mode (s : State) : s.committed.mode = s.mode := by
  rw [State.committed_frame]
@[simp] theorem State.committed_fault (s : State) : s.committed.fault = s.fault := by
  rw [State.committed_frame]
@[simp] theorem State.committed_err (s : State) : s.committed.err = s.err := by
  rw [State.committed_frame]
@[simp] theorem State.committed_errcmd (s : State) : s.committed.errcmd = s.errcmd := by
  rw [State.committed_frame]
@[simp] theorem State.committed_arg0 (s : State) : s.committed.arg0 = s.arg0 := by
  rw [State.committed_frame]
@[simp] theorem State.committed_arg1 (s : State) : s.committed.arg1 = s.arg1 := by
  rw [State.committed_frame]
@[simp] theorem State.committed_res0 (s : State) : s.committed.res0 = s.res0 := by
  rw [State.committed_frame]
@[simp] theorem State.committed_res1 (s : State) : s.committed.res1 = s.res1 := by
  rw [State.committed_frame]
@[simp] theorem State.committed_sr (s : State) : s.committed.sr = s.sr := by
  rw [State.committed_frame]
@[simp] theorem State.committed_maxblk (s : State) : s.committed.maxblk = s.maxblk := by
  rw [State.committed_frame]
@[simp] theorem State.committed_phase (s : State) : s.committed.phase = s.phase := by
  rw [State.committed_frame]
@[simp] theorem State.committed_inc (s : State) : s.committed.inc = s.inc := by
  rw [State.committed_frame]
@[simp] theorem State.committed_tbl (s : State) : s.committed.tbl = s.tbl := by
  rw [State.committed_frame]
@[simp] theorem State.committed_sh (s : State) : s.committed.sh = s.sh := by
  rw [State.committed_frame]
@[simp] theorem State.committed_shslope (s : State) : s.committed.shslope = s.shslope := by
  rw [State.committed_frame]
@[simp] theorem State.committed_dly (s : State) : s.committed.dly = s.dly := by
  rw [State.committed_frame]
@[simp] theorem State.committed_tblLen (s : State) : s.committed.tblLen = s.tblLen := by
  rw [State.committed_frame]
@[simp] theorem State.committed_pending (s : State) : s.committed.pending = s.pending := by
  rw [State.committed_frame]
@[simp] theorem State.committed_replies (s : State) : s.committed.replies = s.replies := by
  rw [State.committed_frame]

/-! ### What a command can do -/

/-- What each command writes when it raises no fault, with the checks on its operands that it has passed: `exec_cases`
ties it to `exec`. -/
inductive Effect (s : State) : Instr → State → Prop where
  | nop : Effect s .nop s
  | prepare (hr : validRate s.arg0 = true) (hb : validBlock s.arg1 = true) : Effect s .prepare s.prepared
  | start : Effect s .start (s.setMode .run)
  | oscSetfreq (o : Fin 128) (hf : validFreq s.arg0 = true) (hx : validInc (incOf s.tblLen s.sr s.arg0) = true) :
      Effect s (.oscSetfreq o) (s.setInc o (incOf s.tblLen s.sr s.arg0))
  | oscSample (o : Fin 128) (hfull : s.tblFull = true) :
      Effect s (.oscSample o)
        ((s.setRes0 (interp s.tblLen s.tbl s.phase[o])).setPhase o (advance s.tblLen s.phase[o] s.inc[o]))
  | oscStop (o : Fin 128) : Effect s (.oscStop o) ((s.setPhase o 0).setInc o 0)
  | oscStatus (o : Fin 128) : Effect s (.oscStatus o) (s.setRes0 (if s.playing o then 1 else 0))
  | oscRead (o : Fin 128) : Effect s (.oscRead o) ((s.setRes0 s.phase[o]).setRes1 s.inc[o])
  | wtWrite (j : Fin 4096) (hj : j.val < s.tblLen.val) (hf : isFinite s.arg0 = true) :
      Effect s (.wtWrite j) (s.writeTable j.val (tableValue s.arg0))
  | wtRead (j : Fin 4096) (hj : j.val < s.tblLen.val) {v : Word} (hv : s.tbl.read j.val = some v) :
      Effect s (.wtRead j) (s.setRes0 v)
  | cfWrite {a : Fin 16} {k : Fin 8} {st : Fin 9} {c : Coef} (ha : stageOf a = some st) (hk : coefOf k = some c)
      (hf : isFinite s.arg0 = true) : Effect s (.cfWrite a k) (s.setShadow st c s.arg0)
  | cfRead {a : Fin 16} {k : Fin 8} {st : Fin 9} {c : Coef} (ha : stageOf a = some st) (hk : coefOf k = some c) :
      Effect s (.cfRead a k) (s.setRes0 (s.sh[st].get c))
  | cfSlope (c : Chain) (n : BitVec 2) : Effect s (.cfSlope c n) (s.setSlope c n)
  | cfCommit : Effect s .cfCommit s.committed
  | cfStat : Effect s .cfStat (s.setRes0 s.cfStatWord)
  | bqProc (ch : Channel) :
      Effect s (.bqProc ch) ((s.setDelays ch (s.chain ch s.arg0).2).setRes0 (s.chain ch s.arg0).1)
  | bqProc2 {l r : Word × Vector Delay 9} (hl : l = s.chain .left s.arg0)
      (hr : r = (s.setDelays .left l.2).chain .right s.arg1) :
      Effect s .bqProc2 ((((s.setDelays .left l.2).setDelays .right r.2).setRes0 l.1).setRes1 r.1)
  | bqReset : Effect s .bqReset s.clearDelays
  | bqRdstate (ch : Channel) {a : Fin 16} (j : StateWord) {st : Fin 9} (ha : stageOf a = some st) :
      Effect s (.bqRdstate ch a j) (s.setRes0 ((s.dly.get ch)[st].get j))
  | bqRdcoef {a : Fin 16} {k : Fin 8} {st : Fin 9} {c : Coef} (ha : stageOf a = some st) (hk : coefOf k = some c) :
      Effect s (.bqRdcoef a k) (s.setRes0 (s.coef[st].get c))

/-- PREPARE with refused operands: the one fault with an effect beside the record (R101, R202). -/
def State.prepareRefused (s : State) : State := (s.setMode .unprep).recordFault .operand (encode .prepare)

/-- Everything a command can do: it takes effect, or it raises one fault, which is no bus fault and changes nothing but the
record, or it is a PREPARE with refused operands. -/
def Outcomes (s : State) (i : Instr) (t : State) : Prop :=
  Effect s i t ∨ (∃ c, c ≠ .bus ∧ t = s.recordFault c (encode i)) ∨ (i = .prepare ∧ t = s.prepareRefused)

/-- What a command's pseudocode may answer in a state. -/
def BodyOutcomes (s : State) (i : Instr) : Except FaultCode State → Prop
  | .ok t => Effect s i t ∨ (i = .prepare ∧ t = s.prepareRefused)
  | .error c => c ≠ .bus

theorem BodyOutcomes.ok {s t : State} {i : Instr} (h : Effect s i t) : BodyOutcomes s i (.ok t) := .inl h

theorem outcomes_of_body {modes : List Mode} {i : Instr} {body : State → Except FaultCode State} {s t : State}
    (h : runCommand modes (encode i) body s = .next t) (hb : BodyOutcomes s i (body s)) : Outcomes s i t := by
  obtain ⟨-, hok⟩ | ⟨-, c, herr, rfl⟩ | ⟨-, rfl⟩ := runCommand_cases h
  · rw [hok] at hb
    exact hb.imp_right .inr
  · rw [herr] at hb
    exact .inr (.inl ⟨c, hb, rfl⟩)
  · exact .inr (.inl ⟨.mode, by decide, rfl⟩)

theorem execNop_cases {s t : State} (h : execNop s = .next t) : Outcomes s .nop t := outcomes_of_body h (.ok .nop)

theorem execPrepare_cases {s t : State} (h : execPrepare s = .next t) : Outcomes s .prepare t := by
  refine outcomes_of_body h ?_
  split
  · next hv => exact .ok (.prepare (Bool.and_eq_true_iff.1 hv).1 (Bool.and_eq_true_iff.1 hv).2)
  · exact .inr ⟨rfl, rfl⟩

theorem execStart_cases {s t : State} (h : execStart s = .next t) : Outcomes s .start t :=
  outcomes_of_body h (.ok .start)

theorem execOscSetfreq_cases {o : Fin 128} {s t : State} (h : execOscSetfreq o s = .next t) :
    Outcomes s (.oscSetfreq o) t := by
  refine outcomes_of_body h ?_
  split
  · next hf =>
    split
    · next hx => exact .ok (.oscSetfreq o hf hx)
    · exact nofun
  · exact nofun

theorem execOscSample_cases {o : Fin 128} {s t : State} (h : execOscSample o s = .next t) :
    Outcomes s (.oscSample o) t := by
  refine outcomes_of_body h ?_
  split
  · next hfull => exact .ok (.oscSample o hfull)
  · exact nofun

theorem execOscStop_cases {o : Fin 128} {s t : State} (h : execOscStop o s = .next t) : Outcomes s (.oscStop o) t :=
  outcomes_of_body h (.ok (.oscStop o))

theorem execOscStatus_cases {o : Fin 128} {s t : State} (h : execOscStatus o s = .next t) :
    Outcomes s (.oscStatus o) t :=
  outcomes_of_body h (.ok (.oscStatus o))

theorem execOscRead_cases {o : Fin 128} {s t : State} (h : execOscRead o s = .next t) : Outcomes s (.oscRead o) t :=
  outcomes_of_body h (.ok (.oscRead o))

theorem execWtWrite_cases {j : Fin 4096} {s t : State} (h : execWtWrite j s = .next t) : Outcomes s (.wtWrite j) t := by
  refine outcomes_of_body h ?_
  split
  · exact nofun
  · next hj =>
    split
    · next hf => exact .ok (.wtWrite j (not_le.1 hj) hf)
    · exact nofun

theorem execWtRead_cases {j : Fin 4096} {s t : State} (h : execWtRead j s = .next t) : Outcomes s (.wtRead j) t := by
  refine outcomes_of_body h ?_
  split
  · exact nofun
  · next hj =>
    split
    · next hv => exact .ok (.wtRead j (not_le.1 hj) hv)
    · exact nofun

theorem execCfWrite_cases {a : Fin 16} {k : Fin 8} {s t : State} (h : execCfWrite a k s = .next t) :
    Outcomes s (.cfWrite a k) t := by
  refine outcomes_of_body h ?_
  split
  · next ha hk =>
    split
    · next hf => exact .ok (.cfWrite ha hk hf)
    · exact nofun
  · exact nofun

theorem execCfRead_cases {a : Fin 16} {k : Fin 8} {s t : State} (h : execCfRead a k s = .next t) :
    Outcomes s (.cfRead a k) t := by
  refine outcomes_of_body h ?_
  split
  · next ha hk => exact .ok (.cfRead ha hk)
  · exact nofun

theorem execCfSlope_cases {c : Chain} {n : BitVec 2} {s t : State} (h : execCfSlope c n s = .next t) :
    Outcomes s (.cfSlope c n) t :=
  outcomes_of_body h (.ok (.cfSlope c n))

theorem execCfCommit_cases {s t : State} (h : execCfCommit s = .next t) : Outcomes s .cfCommit t :=
  outcomes_of_body h (.ok .cfCommit)

theorem execCfStat_cases {s t : State} (h : execCfStat s = .next t) : Outcomes s .cfStat t :=
  outcomes_of_body h (.ok .cfStat)

theorem execBqProc_cases {ch : Channel} {s t : State} (h : execBqProc ch s = .next t) : Outcomes s (.bqProc ch) t :=
  outcomes_of_body h (.ok (.bqProc ch))

theorem execBqProc2_cases {s t : State} (h : execBqProc2 s = .next t) : Outcomes s .bqProc2 t :=
  outcomes_of_body h (.ok (.bqProc2 rfl rfl))

theorem execBqReset_cases {s t : State} (h : execBqReset s = .next t) : Outcomes s .bqReset t :=
  outcomes_of_body h (.ok .bqReset)

theorem execBqRdstate_cases {ch : Channel} {a : Fin 16} {j : StateWord} {s t : State}
    (h : execBqRdstate ch a j s = .next t) : Outcomes s (.bqRdstate ch a j) t := by
  refine outcomes_of_body h ?_
  split
  · next ha => exact .ok (.bqRdstate ch j ha)
  · exact nofun

theorem execBqRdcoef_cases {a : Fin 16} {k : Fin 8} {s t : State} (h : execBqRdcoef a k s = .next t) :
    Outcomes s (.bqRdcoef a k) t := by
  refine outcomes_of_body h ?_
  split
  · next ha hk => exact .ok (.bqRdcoef ha hk)
  · exact nofun

theorem exec_cases {i : Instr} {s t : State} (h : exec i s = .next t) : Outcomes s i t := by
  cases i with
  | nop => exact execNop_cases h
  | prepare => exact execPrepare_cases h
  | start => exact execStart_cases h
  | oscSetfreq o => exact execOscSetfreq_cases h
  | oscSample o => exact execOscSample_cases h
  | oscStop o => exact execOscStop_cases h
  | oscStatus o => exact execOscStatus_cases h
  | oscRead o => exact execOscRead_cases h
  | wtWrite j => exact execWtWrite_cases h
  | wtRead j => exact execWtRead_cases h
  | cfWrite a k => exact execCfWrite_cases h
  | cfRead a k => exact execCfRead_cases h
  | cfSlope c n => exact execCfSlope_cases h
  | cfCommit => exact execCfCommit_cases h
  | cfStat => exact execCfStat_cases h
  | bqProc ch => exact execBqProc_cases h
  | bqProc2 => exact execBqProc2_cases h
  | bqReset => exact execBqReset_cases h
  | bqRdstate ch a j => exact execBqRdstate_cases h
  | bqRdcoef a k => exact execBqRdcoef_cases h

/-- A part of the state that neither the record nor MODE is part of is kept by a command whose effect keeps it. -/
theorem exec_keeps {α : Type} {i : Instr} {s t : State} (f : State → α) (h : exec i s = .next t)
    (hrec : ∀ s c w, f (State.recordFault s c w) = f s) (hmode : ∀ s m, f (State.setMode s m) = f s)
    (heff : Effect s i t → f t = f s) : f t = f s := by
  obtain he | ⟨c, -, rfl⟩ | ⟨-, rfl⟩ := exec_cases h
  · exact heff he
  · exact hrec s c _
  · exact (hrec _ _ _).trans (hmode s _)

/-! ### What a step can do -/

theorem step_of_pending {s : State} {e : HostEvent} {rest : List HostEvent} (h : s.pending = e :: rest) :
    step s = serve e { s with pending := rest } := by
  simp only [step, stepBus, h]

/-- Every step does nothing or serves the next event. -/
theorem step_cases {s t : State} (h : step s = .next t) :
    (s.pending = [] ∧ t = s) ∨
    ∃ e rest, s.pending = e :: rest ∧ serve e { s with pending := rest } = .next t := by
  unfold step stepBus at h
  split at h
  · next hp => cases h; exact .inl ⟨hp, rfl⟩
  · next e rest hp => exact .inr ⟨e, rest, hp, h⟩

/-- A property that reset, the commands, recording a fault, the host's two operand registers and the host's two lists keep
is kept by every step. -/
theorem step_preserves {P : State → Prop} {s t : State} (h : step s = .next t) (hs : P s)
    (hpending : ∀ s es, P s → P { s with pending := es }) (hreply : ∀ s w, P s → P (s.reply w))
    (harg0 : ∀ s w, P s → P { s with arg0 := w }) (harg1 : ∀ s w, P s → P { s with arg1 := w })
    (hreset : ∀ s, P s → P (assertReset s)) (hrec : ∀ s c w, P s → P (s.recordFault c w))
    (hexec : ∀ i s t, P s → exec i s = .next t → P t) : P t := by
  obtain ⟨-, rfl⟩ | ⟨e, rest, -, he⟩ := step_cases h
  · exact hs
  have hs' : P { s with pending := rest } := hpending s rest hs
  cases e with
  | reset => cases he; exact hreset _ hs'
  | read off =>
    cases he
    obtain ⟨r, -, hr⟩ | ⟨-, hr⟩ := busRead_cases off { s with pending := rest }
    · rw [hr]; exact hreply _ _ hs'
    · rw [hr]; exact hreply _ _ (hrec _ _ _ hs')
  | write off w be =>
    change busWrite off w be _ = _ at he
    obtain ⟨-, hw⟩ | ⟨-, hw⟩ | ⟨-, -, hw⟩ | hw := busWrite_cases off w be { s with pending := rest }
    · rw [hw] at he; cases he; exact harg0 _ _ hs'
    · rw [hw] at he; cases he; exact harg1 _ _ hs'
    · rw [hw] at he
      obtain ⟨i, -, hi⟩ | ⟨e, -, hi⟩ := issue_cases w { s with pending := rest }
      · exact hexec i _ _ hs' (hi ▸ he)
      · rw [hi] at he; cases he; exact hrec _ _ _ hs'
    · rw [hw] at he; cases he; exact hrec _ _ _ hs'

end Sys2Proof.Machine
end

section
/-! The invariants of R41 hold at reset, and every step keeps them: one lemma for each write to the state, each giving only
the invariants that write touches. -/

namespace Sys2Proof.Machine

/-! ### The words an invariant speaks of -/

theorem phaseOk_zero (len : TblLen) : phaseOk len 0 := .inl rfl

theorem incOk_zero : incOk 0 := .inl rfl

theorem incOk_of_validInc {x : Word} (h : validInc x = true) : incOk x := .inr (Bool.and_eq_true_iff.1 h)

theorem ne_zero_of_validInc {x : Word} (h : validInc x = true) : x ≠ 0 := by
  rintro rfl
  exact absurd h (by decide)

/-- An oscillator at rest stays at +0 (R130). -/
theorem advance_zero (len : TblLen) : advance len 0 0 = 0 := by
  have hsum : fadd 0 0 = 0 := by decide
  have hrest : (isFinite 0 && geZero 0) = true := by decide
  have hmag : magOf 0 = 0 := by decide
  rw [advance, hsum, wrapL, if_pos hrest, hmag, Nat.zero_mod, roundWord_zero]
  rfl

/-- What WT.WRITE stores is finite and not -0.0 (R110). -/
theorem entryOk_tableValue {w : Word} (h : isFinite w = true) : entryOk (tableValue w) := by
  unfold tableValue
  split
  · next hne =>
    refine ⟨h, ?_⟩
    rintro rfl
    exact absurd hne (by decide)
  · exact ⟨by decide, by decide⟩

theorem setOk_set {c : CoefSet} (hc : setOk c) (k : Coef) {v : Word} (hv : isFinite v = true) : setOk (c.set k v) := by
  intro j
  by_cases hjk : j = k
  · rw [hjk, CoefSet.get_set_same]; exact hv
  · rw [CoefSet.get_set_other c v hjk]; exact hc j

theorem setOk_identity : setOk CoefSet.identity := by
  intro k
  cases k <;> decide

theorem bypOk_replicate (b : Bool) : bypOk (Vector.replicate 4 b) := by
  intro i j _ hi
  simpa using hi

theorem FaultCode.code_ne_zero (c : FaultCode) : c.code ≠ 0 := by cases c <;> decide

theorem FaultCode.code_le (c : FaultCode) : c.code.toNat ≤ 7 := by cases c <;> decide

/-- Every stage is the peak stage or one of the cut stages (R72). -/
theorem stage_cases (st : Fin 9) : st = peakStage ∨ ∃ c i, st = cutStage c i := by
  have h : st = peakStage ∨ (∃ i, st = cutStage .lc i) ∨ ∃ i, st = cutStage .hc i := by revert st; decide
  obtain h | ⟨i, h⟩ | ⟨i, h⟩ := h
  · exact .inl h
  · exact .inr ⟨.lc, i, h⟩
  · exact .inr ⟨.hc, i, h⟩

/-! ### Reset (R220) -/

theorem State.inv_resetOf (len : TblLen) : (State.resetOf len).Inv where
  phase_ok o := by simpa [State.resetOf] using phaseOk_zero len
  inc_ok o := by simpa [State.resetOf] using incOk_zero
  stopped o _ := by simp [State.resetOf]
  tbl_wf := State.resetOf_tbl_wf len
  tbl_ok _ _ h := nomatch h
  byp_ok c := by cases c <;> exact bypOk_replicate true
  sh_ok st := by simpa [State.resetOf] using setOk_identity
  coef_ok st := by simpa [State.resetOf] using setOk_identity
  fault_err := iff_of_false Bool.false_ne_true fun hne => hne rfl
  err_code := by simp [State.resetOf]
  no_record _ := rfl

theorem State.inv_assertReset (s : State) : (assertReset s).Inv := { State.inv_resetOf s.tblLen with }

/-- Settles O56: every word of the reset state is one that its invariant allows. -/
theorem resetSatisfiesTheInvariants : Obligations.ResetSatisfiesTheInvariants :=
  ⟨State.inv_resetOf _, State.inv_resetOf⟩

/-! ### Each write to the state -/

section
variable {s : State} (h : s.Inv)
include h

theorem State.Inv.withPending (es : List HostEvent) : State.Inv { s with pending := es } := { h with }
theorem State.Inv.withArg0 (w : Word) : State.Inv { s with arg0 := w } := { h with }
theorem State.Inv.withArg1 (w : Word) : State.Inv { s with arg1 := w } := { h with }
theorem State.Inv.reply (w : Word) : (s.reply w).Inv := { h with }
theorem State.Inv.setRes0 (v : Word) : (s.setRes0 v).Inv := { h with }
theorem State.Inv.setRes1 (v : Word) : (s.setRes1 v).Inv := { h with }
theorem State.Inv.setMode (m : Mode) : (s.setMode m).Inv := { h with }
theorem State.Inv.setSlope (c : Chain) (n : BitVec 2) : (s.setSlope c n).Inv := { h with }
theorem State.Inv.setDelays (ch : Channel) (d : Vector Delay 9) : (s.setDelays ch d).Inv := { h with }
theorem State.Inv.clearDelays : s.clearDelays.Inv := { h with }
theorem State.Inv.latchSetup : s.latchSetup.Inv := { h with }

theorem State.Inv.clearTable : s.clearTable.Inv :=
  { h with
    tbl_wf := Memory.wf_empty
    tbl_ok := fun _ _ hv => nomatch hv }

theorem State.Inv.clearOscillators : s.clearOscillators.Inv :=
  { h with
    phase_ok := fun o => by simpa using phaseOk_zero s.tblLen
    inc_ok := fun o => by simpa using incOk_zero
    stopped := fun o _ => by simp }

theorem State.Inv.setPhase (o : Fin 128) {v : Word} (hv : phaseOk s.tblLen v) (hstop : s.inc[o] = 0 → v = 0) :
    (s.setPhase o v).Inv :=
  { h with
    phase_ok := fun o' => by
      by_cases ho : o' = o
      · simpa [ho] using hv
      · simpa [Vector.getElem_set, Fin.val_ne_of_ne (Ne.symm ho)] using h.phase_ok o'
    stopped := fun o' hi => by
      by_cases ho : o' = o
      · simpa [ho] using hstop (ho ▸ hi)
      · simpa [Vector.getElem_set, Fin.val_ne_of_ne (Ne.symm ho)] using h.stopped o' hi }

theorem State.Inv.setInc (o : Fin 128) {v : Word} (hv : incOk v) (hstop : v = 0 → s.phase[o] = 0) :
    (s.setInc o v).Inv :=
  { h with
    inc_ok := fun o' => by
      by_cases ho : o' = o
      · simpa [ho] using hv
      · simpa [Vector.getElem_set, Fin.val_ne_of_ne (Ne.symm ho)] using h.inc_ok o'
    stopped := fun o' => by
      by_cases ho : o' = o
      · simpa [ho] using hstop
      · simpa [Vector.getElem_set, Fin.val_ne_of_ne (Ne.symm ho)] using h.stopped o' }

theorem State.Inv.writeTable {i : Nat} (hi : i < s.tblLen.val) {v : Word} (hv : entryOk v) : (s.writeTable i v).Inv :=
  { h with
    tbl_wf := Memory.wf_write h.tbl_wf i v
    tbl_ok := fun j u hu => by
      by_cases hj : j = i
      · rw [hj, State.writeTable_tbl, Memory.read_write_same] at hu
        cases hu
        exact ⟨hj ▸ hi, hv⟩
      · rw [State.writeTable_tbl, Memory.read_write_other s.tbl v hj] at hu
        exact h.tbl_ok j u hu }

theorem State.Inv.setShadow (st : Fin 9) (k : Coef) {v : Word} (hv : isFinite v = true) : (s.setShadow st k v).Inv :=
  { h with
    sh_ok := fun st' => by
      by_cases hst : st' = st
      · simpa [hst] using setOk_set (h.sh_ok st) k hv
      · simpa [Vector.getElem_set, Fin.val_ne_of_ne (Ne.symm hst)] using h.sh_ok st' }

/-- A commit takes sets from the shadow bank, whose words are finite, and leaves the flags rising (R146). -/
theorem State.Inv.committed : s.committed.Inv := by
  have hcoef (st : Fin 9) : setOk s.committed.coef[st] := by
    obtain rfl | ⟨c, i, rfl⟩ := stage_cases st
    · rw [State.committed_coef_peak]
      exact h.sh_ok peakStage
    · rw [State.committed_coef_cut]
      split
      · exact h.sh_ok _
      · exact h.coef_ok _
  have hbyp (c : Chain) : bypOk (s.committed.byp.get c) := by
    intro i j hij
    simp only [State.committed_byp, decide_eq_true_eq]
    exact fun hi => hi.trans (le_of_lt hij)
  rw [State.committed_frame]
  exact { h with coef_ok := hcoef, byp_ok := hbyp }

/-- The record after a fault is consistent: a recorded code is a code of R200, and there is one (R25, R203). -/
theorem State.Inv.recordFault (c : FaultCode) (w : Word) : (s.recordFault c w).Inv := by
  obtain ⟨-, hrec⟩ | ⟨herr, hrec⟩ := State.recordFault_cases s c w
  · rw [hrec]
    exact { h with
      fault_err := iff_of_true rfl c.code_ne_zero
      err_code := c.code_le
      no_record := fun h0 => absurd h0 c.code_ne_zero }
  · rw [hrec]
    exact { h with fault_err := iff_of_true rfl herr }

theorem State.Inv.prepared : s.prepared.Inv :=
  h.latchSetup.clearOscillators.clearTable.clearDelays.setMode .setup

/-- The phase OSC.SAMPLE leaves: the advance stays in the table, and a stopped oscillator stays at +0 (R122, R128). -/
theorem State.Inv.advancePhase (o : Fin 128) : (s.setPhase o (advance s.tblLen s.phase[o] s.inc[o])).Inv :=
  h.setPhase o (phaseOk_advance (h.phase_ok o) (h.inc_ok o)) fun hi => by rw [h.stopped o hi, hi, advance_zero]

/-- OSC.STOP sets the phase first, so that the oscillator is at +0 when its increment becomes +0 (R125). -/
theorem State.Inv.stop (o : Fin 128) : ((s.setPhase o 0).setInc o 0).Inv :=
  (h.setPhase o (phaseOk_zero _) fun _ => rfl).setInc o incOk_zero fun _ => by simp

end

/-! ### Commands and steps -/

theorem Effect.inv {s t : State} {i : Instr} (he : Effect s i t) (h : s.Inv) : t.Inv := by
  cases he with
  | nop => exact h
  | prepare => exact h.prepared
  | start => exact h.setMode _
  | oscSetfreq o _ hx => exact h.setInc o (incOk_of_validInc hx) fun h0 => absurd h0 (ne_zero_of_validInc hx)
  | oscSample o => exact (h.setRes0 _).advancePhase o
  | oscStop o => exact h.stop o
  | oscStatus => exact h.setRes0 _
  | oscRead => exact (h.setRes0 _).setRes1 _
  | wtWrite j hj hf => exact h.writeTable hj (entryOk_tableValue hf)
  | wtRead => exact h.setRes0 _
  | cfWrite _ _ hf => exact h.setShadow _ _ hf
  | cfRead => exact h.setRes0 _
  | cfSlope => exact h.setSlope _ _
  | cfCommit => exact h.committed
  | cfStat => exact h.setRes0 _
  | bqProc => exact (h.setDelays _ _).setRes0 _
  | bqProc2 => exact (((h.setDelays _ _).setDelays _ _).setRes0 _).setRes1 _
  | bqReset => exact h.clearDelays
  | bqRdstate => exact h.setRes0 _
  | bqRdcoef => exact h.setRes0 _

theorem exec_inv {i : Instr} {s t : State} (h : s.Inv) (ht : exec i s = .next t) : t.Inv := by
  obtain he | ⟨c, -, rfl⟩ | ⟨-, rfl⟩ := exec_cases ht
  · exact he.inv h
  · exact h.recordFault c _
  · exact (h.setMode .unprep).recordFault .operand _

/-- Settles O57: each thing a step can do keeps the invariants. -/
theorem everyStepKeepsTheInvariants : Obligations.EveryStepKeepsTheInvariants := fun _ _ h ht =>
  step_preserves ht h (fun _ es hs => hs.withPending es) (fun _ w hs => hs.reply w) (fun _ w hs => hs.withArg0 w)
    (fun _ w hs => hs.withArg1 w) (fun s _ => s.inv_assertReset) (fun _ c w hs => hs.recordFault c w)
    (fun _ _ _ hs he => exec_inv hs he)

end Sys2Proof.Machine
end

section
/-! Which commands write which part of the state: for each part, the commands its rule names and no other (R28 to R40), and
what a command that faults leaves unchanged (R202). -/

namespace Sys2Proof.Machine

/-! ### What an effect leaves unchanged -/

section
variable {s t : State} {i : Instr} (he : Effect s i t)
include he

theorem Effect.fault_eq : t.fault = s.fault := by
  cases he with
  | cfCommit => exact s.committed_fault
  | _ => rfl

theorem Effect.arg0_eq : t.arg0 = s.arg0 := by
  cases he with
  | cfCommit => exact s.committed_arg0
  | _ => rfl

theorem Effect.arg1_eq : t.arg1 = s.arg1 := by
  cases he with
  | cfCommit => exact s.committed_arg1
  | _ => rfl

theorem Effect.tblLen_eq : t.tblLen = s.tblLen := by
  cases he with
  | cfCommit => exact s.committed_tblLen
  | _ => rfl

theorem Effect.res1_eq (hread : ∀ o, i ≠ .oscRead o) (hproc2 : i ≠ .bqProc2) : t.res1 = s.res1 := by
  cases he with
  | oscRead o => exact absurd rfl (hread o)
  | bqProc2 => exact absurd rfl hproc2
  | cfCommit => exact s.committed_res1
  | _ => rfl

theorem Effect.sr_eq (hprep : i ≠ .prepare) : t.sr = s.sr := by
  cases he with
  | prepare => exact absurd rfl hprep
  | cfCommit => exact s.committed_sr
  | _ => rfl

theorem Effect.maxblk_eq (hprep : i ≠ .prepare) : t.maxblk = s.maxblk := by
  cases he with
  | prepare => exact absurd rfl hprep
  | cfCommit => exact s.committed_maxblk
  | _ => rfl

theorem Effect.phase_eq (hprep : i ≠ .prepare) (hsample : ∀ o, i ≠ .oscSample o) (hstop : ∀ o, i ≠ .oscStop o) :
    t.phase = s.phase := by
  cases he with
  | prepare => exact absurd rfl hprep
  | oscSample o => exact absurd rfl (hsample o)
  | oscStop o => exact absurd rfl (hstop o)
  | cfCommit => exact s.committed_phase
  | _ => rfl

theorem Effect.inc_eq (hprep : i ≠ .prepare) (hfreq : ∀ o, i ≠ .oscSetfreq o) (hstop : ∀ o, i ≠ .oscStop o) :
    t.inc = s.inc := by
  cases he with
  | prepare => exact absurd rfl hprep
  | oscSetfreq o => exact absurd rfl (hfreq o)
  | oscStop o => exact absurd rfl (hstop o)
  | cfCommit => exact s.committed_inc
  | _ => rfl

theorem Effect.tbl_eq (hprep : i ≠ .prepare) (hwrite : ∀ j, i ≠ .wtWrite j) : t.tbl = s.tbl := by
  cases he with
  | prepare => exact absurd rfl hprep
  | wtWrite j => exact absurd rfl (hwrite j)
  | cfCommit => exact s.committed_tbl
  | _ => rfl

theorem Effect.sh_eq (hwrite : ∀ a k, i ≠ .cfWrite a k) : t.sh = s.sh := by
  cases he with
  | cfWrite => exact absurd rfl (hwrite _ _)
  | cfCommit => exact s.committed_sh
  | _ => rfl

theorem Effect.shslope_eq (hslope : ∀ c n, i ≠ .cfSlope c n) : t.shslope = s.shslope := by
  cases he with
  | cfSlope c n => exact absurd rfl (hslope c n)
  | cfCommit => exact s.committed_shslope
  | _ => rfl

theorem Effect.coef_eq (hcommit : i ≠ .cfCommit) : t.coef = s.coef := by
  cases he with
  | cfCommit => exact absurd rfl hcommit
  | _ => rfl

theorem Effect.byp_eq (hcommit : i ≠ .cfCommit) : t.byp = s.byp := by
  cases he with
  | cfCommit => exact absurd rfl hcommit
  | _ => rfl

theorem Effect.dly_eq (hprep : i ≠ .prepare) (hproc : ∀ ch, i ≠ .bqProc ch) (hproc2 : i ≠ .bqProc2)
    (hreset : i ≠ .bqReset) : t.dly = s.dly := by
  cases he with
  | prepare => exact absurd rfl hprep
  | bqProc ch => exact absurd rfl (hproc ch)
  | bqProc2 => exact absurd rfl hproc2
  | bqReset => exact absurd rfl hreset
  | cfCommit => exact s.committed_dly
  | _ => rfl

end

/-! ### Commands -/

/-- No command writes the operand registers (R28). -/
theorem exec_arg0 {i : Instr} {s t : State} (h : exec i s = .next t) : t.arg0 = s.arg0 :=
  exec_keeps State.arg0 h State.recordFault_arg0 State.setMode_arg0 Effect.arg0_eq

theorem exec_arg1 {i : Instr} {s t : State} (h : exec i s = .next t) : t.arg1 = s.arg1 :=
  exec_keeps State.arg1 h State.recordFault_arg1 State.setMode_arg1 Effect.arg1_eq

/-- No command changes the parameter L (R5). -/
theorem exec_tblLen {i : Instr} {s t : State} (h : exec i s = .next t) : t.tblLen = s.tblLen :=
  exec_keeps State.tblLen h State.recordFault_tblLen State.setMode_tblLen Effect.tblLen_eq

/-- Settles O53: of each element, an effect that is none of its writers keeps it, and so does a fault. -/
theorem eachStateElementHasItsWriters : Obligations.EachStateElementHasItsWriters := by
  intro i s t h
  refine ⟨fun hprep => ⟨?sr, ?maxblk⟩, fun hprep hsample hstop => ?phase, fun hprep hfreq hstop => ?inc,
    fun hprep hwrite j => ?tbl, fun hwrite => ?sh, fun hslope => ?shslope,
    fun hcommit => ⟨?coef, ?byp⟩, fun hprep hproc hproc2 hreset => ?dly⟩
  case sr => exact exec_keeps State.sr h State.recordFault_sr State.setMode_sr (·.sr_eq hprep)
  case maxblk => exact exec_keeps State.maxblk h State.recordFault_maxblk State.setMode_maxblk (·.maxblk_eq hprep)
  case phase =>
    exact exec_keeps State.phase h State.recordFault_phase State.setMode_phase (·.phase_eq hprep hsample hstop)
  case inc => exact exec_keeps State.inc h State.recordFault_inc State.setMode_inc (·.inc_eq hprep hfreq hstop)
  case tbl => rw [exec_keeps State.tbl h State.recordFault_tbl State.setMode_tbl (·.tbl_eq hprep hwrite)]
  case sh => exact exec_keeps State.sh h State.recordFault_sh State.setMode_sh (·.sh_eq hwrite)
  case shslope => exact exec_keeps State.shslope h State.recordFault_shslope State.setMode_shslope (·.shslope_eq hslope)
  case coef => exact exec_keeps State.coef h State.recordFault_coef State.setMode_coef (·.coef_eq hcommit)
  case byp => exact exec_keeps State.byp h State.recordFault_byp State.setMode_byp (·.byp_eq hcommit)
  case dly =>
    exact exec_keeps State.dly h State.recordFault_dly State.setMode_dly (·.dly_eq hprep hproc hproc2 hreset)

/-- The seven commands that observe the block (R224.2). -/
inductive Observes : Instr → Prop where
  | oscStatus (o : Fin 128) : Observes (.oscStatus o)
  | oscRead (o : Fin 128) : Observes (.oscRead o)
  | wtRead (j : Fin 4096) : Observes (.wtRead j)
  | cfRead (a : Fin 16) (k : Fin 8) : Observes (.cfRead a k)
  | cfStat : Observes .cfStat
  | bqRdstate (ch : Channel) (a : Fin 16) (j : StateWord) : Observes (.bqRdstate ch a j)
  | bqRdcoef (a : Fin 16) (k : Fin 8) : Observes (.bqRdcoef a k)

/-- An observation that raises no fault writes RES0 and RES1 only (R212, R224). -/
theorem Effect.eq_of_observes {s t : State} {i : Instr} (he : Effect s i t) (ho : Observes i) :
    t = { s with res0 := t.res0, res1 := t.res1 } := by
  cases ho <;> cases he <;> rfl

theorem exec_observes {s t : State} {i : Instr} (h : exec i s = .next t) (ho : Observes i) :
    { t with res0 := s.res0, res1 := s.res1, fault := s.fault, err := s.err, errcmd := s.errcmd } = s := by
  obtain he | ⟨c, -, rfl⟩ | ⟨rfl, -⟩ := exec_cases h
  · rw [he.eq_of_observes ho]
  · rw [State.recordFault_eq]
  · nomatch ho

/-- Settles O54: an observation writes the results or the record, and RES1 has two writers. -/
theorem observationChangesOnlyResults : Obligations.ObservationChangesOnlyResults := by
  refine ⟨fun i s t h hobs => exec_observes h ?_, fun i s t h hread hproc2 =>
    exec_keeps State.res1 h State.recordFault_res1 State.setMode_res1 (·.res1_eq hread hproc2)⟩
  obtain ⟨o, rfl⟩ | ⟨o, rfl⟩ | ⟨j, rfl⟩ | ⟨a, k, rfl⟩ | rfl | ⟨ch, a, j, rfl⟩ | ⟨a, k, rfl⟩ := hobs
  · exact .oscStatus o
  · exact .oscRead o
  · exact .wtRead j
  · exact .cfRead a k
  · exact .cfStat
  · exact .bqRdstate ch a j
  · exact .bqRdcoef a k

/-! ### Commands that fault -/

/-- A command's fault has a code 1 to 6: 7 is the bus's own (R200). -/
theorem FaultCode.code_of_ne_bus {c : FaultCode} (hc : c ≠ .bus) : 1 ≤ c.code.toNat ∧ c.code.toNat ≤ 6 := by
  cases c with
  | bus => exact absurd rfl hc
  | _ => decide

/-- Settles O16: an effect leaves FAULT as it was, so that a command that sets it took one of the two faulting outcomes. -/
theorem faultingCommandsChangeOnlyTheRecord : Obligations.FaultingCommandsChangeOnlyTheRecord := by
  intro i s t hfault herr h htfault
  obtain he | ⟨c, hc, rfl⟩ | ⟨rfl, rfl⟩ := exec_cases h
  · rw [he.fault_eq, hfault] at htfault
    nomatch htfault
  · have hcode : (s.recordFault c (encode i)).err = c.code := by rw [State.recordFault_err, if_pos herr]
    rw [hcode]
    obtain ⟨hge, hle⟩ := FaultCode.code_of_ne_bus hc
    exact ⟨hge, hle, .inl (by rw [State.recordFault_eq, if_pos herr, if_pos herr])⟩
  · have hrec : s.prepareRefused = { s with mode := .unprep, fault := true, err := 4, errcmd := encode .prepare } := by
      rw [State.prepareRefused, State.recordFault_eq, State.setMode_err, if_pos herr, if_pos herr]
      rfl
    obtain ⟨hge, hle⟩ := FaultCode.code_of_ne_bus (c := .operand) nofun
    rw [hrec]
    exact ⟨hge, hle, .inr ⟨rfl, rfl⟩⟩

end Sys2Proof.Machine
end

section
/-! The registers on the bus: a Write to CMD (R27), the Reads of the map (R21), the operand registers (R28), and the words CFG
(R23) and STATUS (R24). -/

namespace Sys2Proof.Machine

/-! ### Serving one event -/

/-- A whole-word Write to CMD issues the word (R27). -/
theorem serve_commandWrite (w : Word) (s : State) : serve (commandWrite w) s = issue w s := rfl

theorem issue_ok {w : Word} {i : Instr} (h : decode w = .ok i) (s : State) : issue w s = exec i s := by
  rw [issue, h]

theorem issue_error {w : Word} {e : DecodeError} (h : decode w = .error e) (s : State) :
    issue w s = .next (s.recordFault .illegal w) := by
  rw [issue, h]

theorem serve_read {off : Byte} {r : Reg} (h : regAt off = some r) (s : State) :
    serve (.read off) s = .next (s.reply (s.readReg r)) := by
  rw [serve, busRead, h]

/-- Settles O6: the step serves the Write, and the Write issues the word. -/
theorem stepRunsTheDecodedCommand : Obligations.StepRunsTheDecodedCommand := fun s w rest hp =>
  ⟨fun i hd => by rw [step_of_pending hp, serve_commandWrite, issue_ok hd],
    fun e hd => by rw [step_of_pending hp, serve_commandWrite, issue_error hd]⟩

/-! ### Reads of the map -/

theorem step_read {s : State} {off : Byte} {r : Reg} {rest : List HostEvent} (hp : s.pending = .read off :: rest)
    (hr : regAt off = some r) :
    step s = .next { s with pending := rest, replies := s.replies ++ [s.readReg r] } := by
  rw [step_of_pending hp, serve_read hr]
  cases r <;> rfl

/-- ERR shows its code in bits 7:0 of a word (R25). -/
theorem readReg_err (s : State) : s.readReg .err = s.err.setWidth 32 := by
  rw [BitVec.setWidth_eq_append (by norm_num)]
  rfl

/-- Settles O8: at each listed offset stands a register, and the listed word is what it reads as. -/
theorem readReturnsTheRegister : Obligations.ReadReturnsTheRegister := by
  intro s off w rest hp hmem
  simp only [List.mem_cons, Prod.mk.injEq, List.not_mem_nil, or_false] at hmem
  obtain ⟨rfl, rfl⟩ | ⟨rfl, rfl⟩ | ⟨rfl, rfl⟩ | ⟨rfl, rfl⟩ | ⟨rfl, rfl⟩ | ⟨rfl, rfl⟩ | ⟨rfl, rfl⟩ | ⟨rfl, rfl⟩ | ⟨rfl, rfl⟩ |
    ⟨rfl, rfl⟩ | ⟨rfl, rfl⟩ | ⟨rfl, rfl⟩ := hmem
  · exact step_read (r := .id) hp rfl
  · exact step_read (r := .cfg) hp rfl
  · exact step_read (r := .status) hp rfl
  · rw [← readReg_err]
    exact step_read (r := .err) hp rfl
  · exact step_read (r := .errcmd) hp rfl
  · exact step_read (r := .cmd) hp rfl
  · exact step_read (r := .arg0) hp rfl
  · exact step_read (r := .arg1) hp rfl
  · exact step_read (r := .res0) hp rfl
  · exact step_read (r := .res1) hp rfl
  · exact step_read (r := .sr) hp rfl
  · exact step_read (r := .maxblk) hp rfl

/-! ### The operand registers (R28) -/

theorem step_write_arg0 {s : State} {w : Word} {rest : List HostEvent} (hp : s.pending = .write 0x18 w 0b1111#4 :: rest) :
    step s = .next { s with pending := rest, arg0 := w } :=
  step_of_pending hp

theorem step_write_arg1 {s : State} {w : Word} {rest : List HostEvent} (hp : s.pending = .write 0x1C w 0b1111#4 :: rest) :
    step s = .next { s with pending := rest, arg1 := w } :=
  step_of_pending hp

/-- Settles O11: the Write stores the word, and no effect and no fault of a command touches it. -/
theorem operandRegistersHoldWhatTheHostWrites : Obligations.OperandRegistersHoldWhatTheHostWrites :=
  ⟨fun _ _ _ hp => ⟨_, step_write_arg0 hp, step_read (r := .arg0) rfl rfl⟩,
    fun _ _ _ hp => ⟨_, step_write_arg1 hp, step_read (r := .arg1) rfl rfl⟩,
    fun _ _ _ h => ⟨exec_arg0 h, exec_arg1 h⟩,
    fun _ => ⟨rfl, rfl⟩⟩

/-! ### CFG (R23) -/

theorem cfgWord_tblLen (s : State) : (s.cfgWord.extractLsb' 0 16).toNat = s.tblLen.val := by
  have hlow : s.cfgWord.extractLsb' 0 16 = BitVec.ofNat 16 s.tblLen.val := BitVec.extractLsb'_append_eq_right
  rw [hlow, BitVec.toNat_ofNat, Nat.mod_eq_of_lt (lt_of_le_of_lt s.tblLen.le (by norm_num))]

/-- The fields of CFG above TBLLEN are constants. -/
theorem cfgWord_high {start len : Nat} (h : 16 ≤ start) (s : State) :
    s.cfgWord.extractLsb' start len = (0x7F#8 ++ 0#8).extractLsb' (start - 16) len :=
  BitVec.extractLsb'_append_eq_of_le h

/-- CFG is read-only: a Write there is refused, whatever its byte enables (R23, R53, R54). -/
theorem busWrite_cfg (w : Word) (be : BitVec 4) (s : State) :
    busWrite 0x04 w be s = .next (s.recordFault .bus 0x00000104) := by
  have hinfo : busInfo true 0x04 = 0x00000104 := by decide
  obtain ⟨hr, -⟩ | ⟨hr, -⟩ | ⟨hr, -⟩ | hw := busWrite_cases 0x04 w be s
  · exact absurd hr (by decide)
  · exact absurd hr (by decide)
  · exact absurd hr (by decide)
  · rw [hw, hinfo]

/-- No step changes the parameter L (R5, R23). -/
theorem step_tblLen {s t : State} (h : step s = .next t) : t.tblLen = s.tblLen :=
  step_preserves (P := fun u => u.tblLen = s.tblLen) h rfl (fun _ _ hu => hu) (fun _ _ hu => hu) (fun _ _ hu => hu)
    (fun _ _ hu => hu) (fun _ hu => hu) (fun u c w hu => (u.recordFault_tblLen c w).trans hu)
    (fun _ _ _ hu he => (exec_tblLen he).trans hu)

/-- Settles O12: the fields of the word, and the parameter it shows is constant. -/
theorem cfgWordFields : Obligations.CfgWordFields :=
  ⟨fun s => ⟨cfgWord_tblLen s, cfgWord_high (by norm_num) s, cfgWord_high (by norm_num) s⟩,
    fun _ _ hp => step_read (r := .cfg) hp rfl,
    fun _ w be _ hp => (step_of_pending hp).trans (busWrite_cfg w be _),
    fun s t h => by rw [State.cfgWord, State.cfgWord, step_tblLen h],
    by decide⟩

/-! ### STATUS (R24) -/

theorem statusWord_mode (s : State) : s.statusWord.extractLsb' 0 2 = s.mode.code := BitVec.extractLsb'_append_eq_right

theorem statusWord_fault (s : State) : s.statusWord.getLsbD 2 = s.fault := by
  rw [State.statusWord, BitVec.getLsbD_append, if_neg (by norm_num), BitVec.getLsbD_append, if_pos (by norm_num),
    BitVec.getLsbD_ofBool]
  rfl

theorem statusWord_full (s : State) : s.statusWord.getLsbD 3 = s.tblFull := by
  rw [State.statusWord, BitVec.getLsbD_append, if_neg (by norm_num), BitVec.getLsbD_append, if_neg (by norm_num),
    BitVec.getLsbD_append, if_pos (by norm_num), BitVec.getLsbD_ofBool]
  rfl

theorem statusWord_zero (s : State) : s.statusWord.extractLsb' 4 28 = 0 := by
  rw [State.statusWord, BitVec.extractLsb'_append_eq_of_le (by norm_num), BitVec.extractLsb'_append_eq_of_le (by norm_num),
    BitVec.extractLsb'_append_eq_of_le (by norm_num)]
  rfl

theorem Mode.code_inj {m n : Mode} : m.code = n.code ↔ m = n := by
  cases m <;> cases n <;> decide

/-- Settles O13: STATUS is its four fields, and MODE's codes are distinct. -/
theorem statusWordFields : Obligations.StatusWordFields := by
  intro s
  rw [statusWord_mode, statusWord_full]
  exact ⟨Mode.code_inj (n := .unprep), Mode.code_inj (n := .setup), Mode.code_inj (n := .run), statusWord_fault s,
    Memory.full_iff _ _, statusWord_zero s⟩

/-! ### WT.WRITE and OSC.STATUS -/

/-- A finite word that is equal to zero is one of the two zeros. -/
theorem isZero_of_neZero_eq_false {w : Word} (hf : isFinite w = true) (h : neZero w = false) : isZero w := by
  have hlow : lowBits w = 0 := by simpa [neZero_of_finite hf] using h
  rw [isZero, ← packSign_self w, hlow, packSign_zero]
  cases signBit w
  · exact .inl rfl
  · exact .inr rfl

/-- WT.WRITE stores a finite word as it is, but -0.0 as +0.0 (R110). -/
theorem tableValue_eq {w : Word} (hf : isFinite w = true) : tableValue w = if w = 0x80000000 then 0 else w := by
  cases hne : neZero w with
  | true =>
    have hw : w ≠ 0x80000000 := by
      rintro rfl
      exact absurd hne (by decide)
    rw [tableValue, if_pos hne, if_neg hw]
  | false =>
    obtain rfl | rfl := isZero_of_neZero_eq_false hf hne
    · rfl
    · rfl

theorem exec_wtWrite {s : State} {i : Fin 4096} (hm : s.mode = .setup) (hi : i.val < s.tblLen.val)
    (hf : isFinite s.arg0 = true) : exec (.wtWrite i) s = .next (s.writeTable i.val (tableValue s.arg0)) := by
  change execWtWrite i s = _
  refine runCommand_ok (List.mem_singleton.2 hm) ?_
  rw [if_neg (not_le.2 hi), if_pos hf]

/-- Settles O24: all of the command's effect is one write to the table. -/
theorem wtWriteStoresOneEntry : Obligations.WtWriteStoresOneEntry := by
  intro s i hm hi hf
  refine ⟨_, exec_wtWrite hm hi hf, ?_, fun j hj => Memory.read_write_other s.tbl _ hj, rfl⟩
  rw [State.writeTable_tbl, Memory.read_write_same, tableValue_eq hf]

/-- Of the increments R41 allows, +0 is the only one equal to zero. -/
theorem neZero_of_incOk {x : Word} (h : incOk x) : neZero x = true ↔ x ≠ 0 := by
  obtain rfl | ⟨hf, hg⟩ := h
  · decide
  · have hne : neZero x = true := (neZero_iff hf).2 ((gtZero_iff hf).1 hg).ne'
    refine iff_of_true hne ?_
    rintro rfl
    exact absurd hg (by decide)

theorem exec_oscStatus (s : State) (o : Fin 128) :
    exec (.oscStatus o) s = .next (s.setRes0 (if s.playing o then 1 else 0)) := by
  change execOscStatus o s = _
  exact runCommand_ok (mem_anyMode _) rfl

/-- Settles O36: `neZero` of a legal increment tells it from +0. -/
theorem statusTellsPlaying : Obligations.StatusTellsPlaying := by
  intro s o hx
  rw [exec_oscStatus, State.playing]
  by_cases h0 : s.inc[o] = 0
  · rw [if_neg fun hne => (neZero_of_incOk hx).1 hne h0, if_pos h0]
    rfl
  · rw [if_pos ((neZero_of_incOk hx).2 h0), if_neg h0]
    rfl

end Sys2Proof.Machine
end

section
/-! Refused accesses on the bus (R53, R54): where the map has no register, which offsets a Write reaches, and that a refused
access does nothing but record E_BUS. -/

namespace Sys2Proof.Machine

/-! ### The offsets of the map -/

theorem regAt_eq_none_iff {off : Byte} : regAt off = none ↔ off.toNat % 4 ≠ 0 ∨ 0x30 ≤ off.toNat := by
  rw [← Option.not_isSome_iff_eq_none, regAt_isSome, decide_eq_true_iff]
  omega

/-- The registers that are not read-only stand at three offsets, CMD, ARG0 and ARG1 (R21). -/
theorem mem_writable_iff {off : Byte} :
    off ∈ [0x14#8, 0x18#8, 0x1C#8] ↔ regAt off = some .cmd ∨ regAt off = some .arg0 ∨ regAt off = some .arg1 := by
  revert off; decide

/-- The writable offsets are aligned and mapped (R21). -/
theorem not_writable_of_regAt_eq_none {off : Byte} (h : regAt off = none) : off ∉ [0x14#8, 0x18#8, 0x1C#8] := by
  rw [mem_writable_iff, h]
  simp

/-- The read-only registers are the mapped ones that are not writable (R21, R54). -/
theorem not_writable_of_readOnly {off : Byte} :
    off ∈ [0x00#8, 0x04#8, 0x08#8, 0x0C#8, 0x10#8, 0x20#8, 0x24#8, 0x28#8, 0x2C#8] → off ∉ [0x14#8, 0x18#8, 0x1C#8] := by
  revert off; decide

/-! ### Refused accesses -/

theorem busRead_refused {off : Byte} (h : regAt off = none) (s : State) :
    busRead off s = (s.recordFault .bus (busInfo false off)).reply 0 := by
  rw [busRead, h]

/-- A Write that is partial, or to any offset but the three writable ones, only records E_BUS (R53, R54). -/
theorem busWrite_refused {off : Byte} {be : BitVec 4} (h : off ∉ [0x14#8, 0x18#8, 0x1C#8] ∨ be ≠ 0b1111#4) (w : Word)
    (s : State) : busWrite off w be s = .next (s.recordFault .bus (busInfo true off)) := by
  by_cases hbe : be = 0b1111#4
  · have hoff : off ∉ [0x14#8, 0x18#8, 0x1C#8] := h.resolve_right (not_not_intro hbe)
    obtain ⟨hr, -⟩ | ⟨hr, -⟩ | ⟨hr, -⟩ | hw := busWrite_cases off w be s
    · exact absurd (mem_writable_iff.2 (.inr (.inl hr))) hoff
    · exact absurd (mem_writable_iff.2 (.inr (.inr hr))) hoff
    · exact absurd (mem_writable_iff.2 (.inl hr)) hoff
    · exact hw
  · rw [busWrite, if_neg hbe]

theorem step_read_refused {s : State} {off : Byte} {rest : List HostEvent} (hp : s.pending = .read off :: rest)
    (h : regAt off = none) :
    step s = .next { State.recordFault { s with pending := rest } .bus (0#23 ++ 0#1 ++ off) with
      replies := s.replies ++ [0] } := by
  rw [step_of_pending hp, serve, busRead_refused h, State.reply, State.recordFault_replies]
  rfl

theorem step_write_refused {s : State} {off : Byte} {w : Word} {be : BitVec 4} {rest : List HostEvent}
    (hp : s.pending = .write off w be :: rest) (h : off ∉ [0x14#8, 0x18#8, 0x1C#8] ∨ be ≠ 0b1111#4) :
    step s = .next (State.recordFault { s with pending := rest } .bus (0#23 ++ 1#1 ++ off)) :=
  (step_of_pending hp).trans (busWrite_refused h w _)

/-- Settles O9: no register stands at a misaligned offset, and a partial Write reaches none. -/
theorem misalignedAndPartialAccessesAreRefused : Obligations.MisalignedAndPartialAccessesAreRefused :=
  ⟨fun _ _ _ hoff hp => step_read_refused hp (regAt_eq_none_iff.2 (.inl hoff)),
    fun _ _ _ _ _ h hp =>
      step_write_refused hp (h.imp_left fun hoff => not_writable_of_regAt_eq_none (regAt_eq_none_iff.2 (.inl hoff)))⟩

/-- A Read of a mapped offset leaves the fault record as it was (R54). -/
theorem step_read_mapped_keeps_record {s : State} {off : Byte} {rest : List HostEvent} (hp : s.pending = .read off :: rest)
    (h : regAt off ≠ none) : ∃ t, step s = .next t ∧ t.fault = s.fault ∧ t.err = s.err ∧ t.errcmd = s.errcmd := by
  obtain ⟨r, hr⟩ := Option.ne_none_iff_exists'.1 h
  exact ⟨_, step_read hp hr, rfl, rfl, rfl⟩

/-- Settles O10: no register stands at 0x30 and above, and none of the read-only ones is writable. -/
theorem unmappedAndReadOnlyAccesses : Obligations.UnmappedAndReadOnlyAccesses := by
  refine ⟨?unmappedRead, ?refusedWrite, ?readCmd, ?mappedRead⟩
  case unmappedRead => exact fun s off rest _ hoff hp => step_read_refused hp (regAt_eq_none_iff.2 (.inr hoff))
  case refusedWrite =>
    intro s off w rest _ hoff hp
    refine step_write_refused hp (.inl ?_)
    obtain hunmapped | hreadOnly := hoff
    · exact not_writable_of_regAt_eq_none (regAt_eq_none_iff.2 (.inr hunmapped))
    · exact not_writable_of_readOnly hreadOnly
  case readCmd => exact fun s rest hp => step_read (r := .cmd) hp rfl
  case mappedRead =>
    intro s off rest halign hlt hp
    refine step_read_mapped_keeps_record hp fun hnone => ?_
    have hoff := regAt_eq_none_iff.1 hnone
    omega

end Sys2Proof.Machine
end

section
/-! Command words in arithmetic (R71, R73): a word is its opcode byte and its low 24 bits, `encode` writes `wordValue`, a row of
the opcode map selects the words of its opcode without reserved bits, and what it builds has the word's value again. -/

namespace Sys2Proof

open Machine

/-! ### The value of an encoded word -/

theorem toNat_append_eq_add {m n : Nat} (x : BitVec m) (y : BitVec n) : (x ++ y).toNat = x.toNat * 2 ^ n + y.toNat := by
  rw [BitVec.toNat_append, ← Nat.shiftLeft_add_eq_or_of_lt y.isLt, Nat.shiftLeft_eq]

theorem Chain.bit_toNat (c : Chain) : c.bit.toNat = chainBit c := by cases c <;> rfl

theorem Channel.bit_toNat (ch : Channel) : ch.bit.toNat = channelBit ch := by cases ch <;> rfl

theorem StateWord.bit_toNat (j : StateWord) : j.bit.toNat = stateBit j := by cases j <;> rfl

theorem encodeN_toNat (opc : Byte) : (encodeN opc).toNat = opc.toNat * 2 ^ 24 := by
  rw [encodeN, toNat_append_eq_add, BitVec.toNat_zero, Nat.add_zero]

theorem encodeO_toNat (opc : Byte) (o : Fin 128) : (encodeO opc o).toNat = opc.toNat * 2 ^ 24 + o.val := by
  simp only [encodeO, toNat_append_eq_add, BitVec.toNat_ofFin, BitVec.toNat_zero]
  omega

theorem encodeC_toNat (opc : Byte) (s : Fin 16) (k : Fin 8) :
    (encodeC opc s k).toNat = opc.toNat * 2 ^ 24 + s.val * 2 ^ 3 + k.val := by
  simp only [encodeC, toNat_append_eq_add, BitVec.toNat_ofFin, BitVec.toNat_zero]
  omega

theorem encodeS_toNat (opc : Byte) (c : Chain) (n : BitVec 2) :
    (encodeS opc c n).toNat = opc.toNat * 2 ^ 24 + chainBit c * 2 ^ 2 + n.toNat := by
  simp only [encodeS, toNat_append_eq_add, Chain.bit_toNat, BitVec.toNat_zero]
  omega

theorem encodeF_toNat (opc : Byte) (ch : Channel) : (encodeF opc ch).toNat = opc.toNat * 2 ^ 24 + channelBit ch := by
  simp only [encodeF, toNat_append_eq_add, Channel.bit_toNat, BitVec.toNat_zero]
  omega

theorem encodeQ_toNat (opc : Byte) (ch : Channel) (s : Fin 16) (j : StateWord) :
    (encodeQ opc ch s j).toNat = opc.toNat * 2 ^ 24 + channelBit ch * 2 ^ 5 + s.val * 2 + stateBit j := by
  simp only [encodeQ, toNat_append_eq_add, Channel.bit_toNat, StateWord.bit_toNat, BitVec.toNat_ofFin, BitVec.toNat_zero]
  omega

/-- Every command's word has the value that R71 and R73 give it. -/
theorem encode_toNat (i : Instr) : (encode i).toNat = wordValue i := by
  cases i with
  | nop => exact encodeN_toNat 0x00
  | prepare => exact encodeN_toNat 0x01
  | start => exact encodeN_toNat 0x02
  | oscSetfreq o => exact encodeO_toNat 0x10 o
  | oscSample o => exact encodeO_toNat 0x11 o
  | oscStop o => exact encodeO_toNat 0x12 o
  | oscStatus o => exact encodeO_toNat 0x13 o
  | oscRead o => exact encodeO_toNat 0x14 o
  | wtWrite j => exact encodeT_toNat 0x20 j
  | wtRead j => exact encodeT_toNat 0x21 j
  | cfWrite s k => exact encodeC_toNat 0x30 s k
  | cfRead s k => exact encodeC_toNat 0x31 s k
  | cfSlope c n => exact encodeS_toNat 0x32 c n
  | cfCommit => exact encodeN_toNat 0x33
  | cfStat => exact encodeN_toNat 0x34
  | bqProc ch => exact encodeF_toNat 0x40 ch
  | bqProc2 => exact encodeN_toNat 0x41
  | bqReset => exact encodeN_toNat 0x42
  | bqRdstate ch s j => exact encodeQ_toNat 0x43 ch s j
  | bqRdcoef s k => exact encodeC_toNat 0x44 s k

/-! ### The fields of a word (R71) -/

/-- The bits of a word below its opcode byte (R71). -/
def operandBits (w : Word) : Nat := w.toNat % 2 ^ 24

theorem toNat_eq_opcodeOf_add (w : Word) : w.toNat = opcodeOf w * 2 ^ 24 + operandBits w := (Nat.div_add_mod' _ _).symm

theorem extractLsb'_toNat_eq (w : Word) {start len : Nat} (h : start + len ≤ 24) :
    (w.extractLsb' start len).toNat = operandBits w / 2 ^ start % 2 ^ len := by
  rw [BitVec.extractLsb'_toNat, Nat.shiftRight_eq_div_pow, operandBits]
  have hsplit : 2 ^ 24 = 2 ^ start * 2 ^ (24 - start) := by rw [← pow_add]; congr 1; omega
  rw [hsplit, Nat.mod_mul_right_div_self, Nat.mod_mod_of_dvd _ (pow_dvd_pow 2 (by omega))]

theorem getLsbD_toNat_eq (w : Word) {i : Nat} (h : i < 24) :
    (w.getLsbD i).toNat = operandBits w / 2 ^ i % 2 := by
  rw [← Nat.toNat_testBit, operandBits, Nat.testBit_mod_two_pow, decide_eq_true h, Bool.true_and]
  rfl

theorem extractLsb'_zero_toNat_eq (w : Word) {len : Nat} (h : len ≤ 24) :
    (w.extractLsb' 0 len).toNat = operandBits w % 2 ^ len := by
  rw [extractLsb'_toNat_eq w (by omega), pow_zero, Nat.div_one]

theorem getLsbD_zero_toNat_eq (w : Word) : (w.getLsbD 0).toNat = operandBits w % 2 := by
  rw [getLsbD_toNat_eq w (by norm_num), pow_zero, Nat.div_one]

theorem fieldOsc_val (w : Word) : (fieldOsc w).val = operandBits w % 2 ^ 7 :=
  extractLsb'_zero_toNat_eq w (by norm_num)

theorem fieldIdx_val (w : Word) : (fieldIdx w).val = operandBits w % 2 ^ 12 :=
  extractLsb'_zero_toNat_eq w (by norm_num)

theorem fieldSet_val (w : Word) : (fieldSet w).val = operandBits w / 2 ^ 3 % 2 ^ 4 :=
  extractLsb'_toNat_eq w (start := 3) (len := 4) (by norm_num)

theorem fieldK_val (w : Word) : (fieldK w).val = operandBits w % 2 ^ 3 :=
  extractLsb'_zero_toNat_eq w (by norm_num)

theorem fieldSlp_toNat (w : Word) : (fieldSlp w).toNat = operandBits w % 2 ^ 2 :=
  extractLsb'_zero_toNat_eq w (by norm_num)

theorem fieldStg_val (w : Word) : (fieldStg w).val = operandBits w / 2 % 2 ^ 4 :=
  extractLsb'_toNat_eq w (start := 1) (len := 4) (by norm_num)

theorem chainBit_fieldChn (w : Word) : chainBit (fieldChn w) = operandBits w / 2 ^ 2 % 2 := by
  rw [← getLsbD_toNat_eq w (by norm_num), fieldChn]
  cases w.getLsbD 2 <;> rfl

theorem channelBit_fieldChF (w : Word) : channelBit (fieldChF w) = operandBits w % 2 := by
  rw [← getLsbD_zero_toNat_eq, fieldChF]
  cases w.getLsbD 0 <;> rfl

theorem channelBit_fieldChQ (w : Word) : channelBit (fieldChQ w) = operandBits w / 2 ^ 5 % 2 := by
  rw [← getLsbD_toNat_eq w (by norm_num), fieldChQ]
  cases w.getLsbD 5 <;> rfl

theorem stateBit_fieldSk (w : Word) : stateBit (fieldSk w) = operandBits w % 2 := by
  rw [← getLsbD_zero_toNat_eq, fieldSk]
  cases w.getLsbD 0 <;> rfl

/-! ### The formats and the rows of the opcode map (R71, R73) -/

/-- How many low bits of a word of the format belong to its fields; the others below the opcode are reserved (R71). -/
def Format.fieldBits : Format → Nat
  | .n => 0
  | .o => 7
  | .t => 12
  | .c => 7
  | .s => 3
  | .f => 1
  | .q => 6

/-- SET, K and STG within their ranges, where the format has them (R71, R76 cases 3 and 4). -/
def Format.InRange : Format → Nat → Prop
  | .n, _ => True
  | .o, _ => True
  | .t, _ => True
  | .c, low => low / 2 ^ 3 % 2 ^ 4 ≤ 8 ∧ low % 2 ^ 3 ≤ 4
  | .s, _ => True
  | .f, _ => True
  | .q, low => low / 2 % 2 ^ 4 ≤ 8

/-- The opcode of a row (R73). -/
def Row.opcode (r : Row) : Nat := opcodeOf r.pattern

/-- No two rows share an opcode (R74). -/
theorem rows_opcode_nodup : (rows.map Row.opcode).Nodup := by decide

/-- The mask of a row leaves out its fields, and its pattern is its opcode. -/
theorem mask_pattern_of_mem_rows : ∀ r ∈ rows,
    r.mask = BitVec.ofNat 32 (2 ^ 32 - 2 ^ r.format.fieldBits) ∧ r.pattern.toNat = r.opcode * 2 ^ 24 := by decide

/-- A row selects the words of its opcode whose reserved bits are 0 (R73, R74). -/
theorem selects_iff {r : Row} (hr : r ∈ rows) {w : Word} :
    r.selects w = true ↔ opcodeOf w = r.opcode ∧ operandBits w < 2 ^ r.format.fieldBits := by
  obtain ⟨hmask, hpattern⟩ := mask_pattern_of_mem_rows r hr
  have hk : r.format.fieldBits ≤ 32 := by cases r.format <;> decide
  rw [Row.selects, beq_iff_eq, hmask, and_highMask_eq_iff _ _ hk, hpattern, opcodeOf, operandBits]
  cases r.format <;> simp only [Format.fieldBits] <;> omega

/-- What a row builds from a word: the command whose value is the row's opcode over the word's field bits, and it is
well-formed exactly when the fields are in range. -/
structure Row.Reads (r : Row) : Prop where
  value : ∀ w, operandBits w < 2 ^ r.format.fieldBits → wordValue (r.build w) = r.opcode * 2 ^ 24 + operandBits w
  wellFormed : ∀ w, (r.build w).wellFormed = true ↔ r.format.InRange (operandBits w)

section
variable {r : Row}

theorem Row.Reads.formatN {i : Instr} (hf : r.format = .n) (hb : r.build = fun _ => i) (hv : wordValue i = r.opcode * 2 ^ 24)
    (hwf : i.wellFormed = true) : r.Reads := by
  refine ⟨fun w h => ?_, fun w => ?_⟩
  · rw [hf, Format.fieldBits] at h
    rw [hb, hv]
    omega
  · rw [hb, hf]
    exact iff_of_true hwf trivial

theorem Row.Reads.formatO {f : Fin 128 → Instr} (hf : r.format = .o) (hb : r.build = fun w => f (fieldOsc w))
    (hv : ∀ o, wordValue (f o) = r.opcode * 2 ^ 24 + o.val) (hwf : ∀ o, (f o).wellFormed = true) : r.Reads := by
  refine ⟨fun w h => ?_, fun w => ?_⟩
  · rw [hf, Format.fieldBits] at h
    rw [hb, hv, fieldOsc_val]
    omega
  · rw [hb, hf]
    exact iff_of_true (hwf _) trivial

theorem Row.Reads.formatT {f : Fin 4096 → Instr} (hf : r.format = .t) (hb : r.build = fun w => f (fieldIdx w))
    (hv : ∀ j, wordValue (f j) = r.opcode * 2 ^ 24 + j.val) (hwf : ∀ j, (f j).wellFormed = true) : r.Reads := by
  refine ⟨fun w h => ?_, fun w => ?_⟩
  · rw [hf, Format.fieldBits] at h
    rw [hb, hv, fieldIdx_val]
    omega
  · rw [hb, hf]
    exact iff_of_true (hwf _) trivial

theorem Row.Reads.formatC {f : Fin 16 → Fin 8 → Instr} (hf : r.format = .c)
    (hb : r.build = fun w => f (fieldSet w) (fieldK w))
    (hv : ∀ s k, wordValue (f s k) = r.opcode * 2 ^ 24 + s.val * 2 ^ 3 + k.val)
    (hwf : ∀ s k, (f s k).wellFormed = (legalStage s && legalCoef k)) : r.Reads := by
  refine ⟨fun w h => ?_, fun w => ?_⟩
  · rw [hf, Format.fieldBits] at h
    rw [hb, hv, fieldSet_val, fieldK_val]
    omega
  · rw [hb, hf, hwf, legalStage, legalCoef, fieldSet_val, fieldK_val, Bool.and_eq_true, decide_eq_true_iff,
      decide_eq_true_iff, Format.InRange]

theorem Row.Reads.formatS {f : Chain → BitVec 2 → Instr} (hf : r.format = .s)
    (hb : r.build = fun w => f (fieldChn w) (fieldSlp w))
    (hv : ∀ c n, wordValue (f c n) = r.opcode * 2 ^ 24 + chainBit c * 2 ^ 2 + n.toNat)
    (hwf : ∀ c n, (f c n).wellFormed = true) : r.Reads := by
  refine ⟨fun w h => ?_, fun w => ?_⟩
  · rw [hf, Format.fieldBits] at h
    rw [hb, hv, chainBit_fieldChn, fieldSlp_toNat]
    omega
  · rw [hb, hf]
    exact iff_of_true (hwf _ _) trivial

theorem Row.Reads.formatF {f : Channel → Instr} (hf : r.format = .f) (hb : r.build = fun w => f (fieldChF w))
    (hv : ∀ ch, wordValue (f ch) = r.opcode * 2 ^ 24 + channelBit ch) (hwf : ∀ ch, (f ch).wellFormed = true) :
    r.Reads := by
  refine ⟨fun w h => ?_, fun w => ?_⟩
  · rw [hf, Format.fieldBits] at h
    rw [hb, hv, channelBit_fieldChF]
    omega
  · rw [hb, hf]
    exact iff_of_true (hwf _) trivial

theorem Row.Reads.formatQ {f : Channel → Fin 16 → StateWord → Instr} (hf : r.format = .q)
    (hb : r.build = fun w => f (fieldChQ w) (fieldStg w) (fieldSk w))
    (hv : ∀ ch s j, wordValue (f ch s j) = r.opcode * 2 ^ 24 + channelBit ch * 2 ^ 5 + s.val * 2 + stateBit j)
    (hwf : ∀ ch s j, (f ch s j).wellFormed = legalStage s) : r.Reads := by
  refine ⟨fun w h => ?_, fun w => ?_⟩
  · rw [hf, Format.fieldBits] at h
    rw [hb, hv, channelBit_fieldChQ, fieldStg_val, stateBit_fieldSk]
    omega
  · rw [hb, hf, hwf, legalStage, fieldStg_val, decide_eq_true_iff, Format.InRange]

end

/-- Every row of the opcode map reads its format's fields (R73). -/
theorem reads_of_mem_rows {r : Row} (hr : r ∈ rows) : r.Reads := by
  simp only [rows, rowsOsc, rowsFilter, List.cons_append, List.nil_append, List.mem_cons, List.not_mem_nil, or_false] at hr
  obtain rfl | rfl | rfl | rfl | rfl | rfl | rfl | rfl | rfl | rfl | rfl | rfl | rfl | rfl | rfl | rfl | rfl | rfl |
    rfl | rfl := hr
  · exact .formatN (i := .nop) rfl rfl rfl rfl
  · exact .formatN (i := .prepare) rfl rfl rfl rfl
  · exact .formatN (i := .start) rfl rfl rfl rfl
  · exact .formatO (f := .oscSetfreq) rfl rfl (fun _ => rfl) (fun _ => rfl)
  · exact .formatO (f := .oscSample) rfl rfl (fun _ => rfl) (fun _ => rfl)
  · exact .formatO (f := .oscStop) rfl rfl (fun _ => rfl) (fun _ => rfl)
  · exact .formatO (f := .oscStatus) rfl rfl (fun _ => rfl) (fun _ => rfl)
  · exact .formatO (f := .oscRead) rfl rfl (fun _ => rfl) (fun _ => rfl)
  · exact .formatT (f := .wtWrite) rfl rfl (fun _ => rfl) (fun _ => rfl)
  · exact .formatT (f := .wtRead) rfl rfl (fun _ => rfl) (fun _ => rfl)
  · exact .formatC (f := .cfWrite) rfl rfl (fun _ _ => rfl) (fun _ _ => rfl)
  · exact .formatC (f := .cfRead) rfl rfl (fun _ _ => rfl) (fun _ _ => rfl)
  · exact .formatS (f := .cfSlope) rfl rfl (fun _ _ => rfl) (fun _ _ => rfl)
  · exact .formatN (i := .cfCommit) rfl rfl rfl rfl
  · exact .formatN (i := .cfStat) rfl rfl rfl rfl
  · exact .formatF (f := .bqProc) rfl rfl (fun _ => rfl) (fun _ => rfl)
  · exact .formatN (i := .bqProc2) rfl rfl rfl rfl
  · exact .formatN (i := .bqReset) rfl rfl rfl rfl
  · exact .formatQ (f := .bqRdstate) rfl rfl (fun _ _ _ => rfl) (fun _ _ _ => rfl)
  · exact .formatC (f := .bqRdcoef) rfl rfl (fun _ _ => rfl) (fun _ _ => rfl)

end Sys2Proof
end

section
/-! The decoder against the encoder (R73 to R76): a word selects at most one row, decoding and encoding undo each other, and the
words that decode to nothing are the four cases of R76. -/

namespace Sys2Proof

open Machine

/-! ### A word selects at most one row (R74) -/

/-- Settles O5: a row that selects the word has the word's opcode, and no opcode stands twice in the map. -/
theorem atMostOneRowSelectsAWord : Obligations.AtMostOneRowSelectsAWord := fun w =>
  calc (rows.filter fun r => r.selects w).length
      = rows.countP fun r => r.selects w := List.countP_eq_length_filter.symm
    _ ≤ rows.countP ((· == opcodeOf w) ∘ Row.opcode) :=
        List.countP_mono_left fun _ hr h => beq_iff_eq.2 ((selects_iff hr).1 h).1.symm
    _ = (rows.map Row.opcode).count (opcodeOf w) := List.countP_map.symm
    _ ≤ 1 := List.nodup_iff_count_le_one.1 rows_opcode_nodup _

theorem eq_of_selects {r q : Row} (hr : r ∈ rows) (hq : q ∈ rows) {w : Word} (hrw : r.selects w = true)
    (hqw : q.selects w = true) : r = q :=
  List.inj_on_of_nodup_map rows_opcode_nodup hr hq
    (((selects_iff hr).1 hrw).1.symm.trans ((selects_iff hq).1 hqw).1)

/-! ### What decoding answers (R74) -/

/-- The decoder finds the row that selects the word. -/
theorem find?_selects_iff {w : Word} {r : Row} :
    rows.find? (fun q => q.selects w) = some r ↔ r ∈ rows ∧ r.selects w = true := by
  have hfound : ∀ {q : Row}, rows.find? (fun r => Row.selects r w) = some q → q ∈ rows ∧ q.selects w = true := fun h =>
    ⟨List.mem_of_find?_eq_some h, List.find?_some (p := fun q => Row.selects q w) h⟩
  refine ⟨hfound, fun ⟨hr, hw⟩ => ?_⟩
  obtain ⟨q, hq⟩ := Option.isSome_iff_exists.1 ((List.find?_isSome (p := fun q => Row.selects q w)).2 ⟨r, hr, hw⟩)
  rw [hq, eq_of_selects (hfound hq).1 hr (hfound hq).2 hw]

/-- A word decodes to a command exactly when a row selects it and builds that command, with its fields in range. -/
theorem decode_eq_ok_iff {w : Word} {i : Instr} :
    decode w = .ok i ↔ ∃ r ∈ rows, r.selects w = true ∧ r.build w = i ∧ i.wellFormed = true := by
  constructor
  · intro h
    unfold decode at h
    split at h
    · next r hfind =>
      obtain ⟨hr, hw⟩ := find?_selects_iff.1 hfind
      split at h
      · next hwf =>
        cases h
        exact ⟨r, hr, hw, rfl, hwf⟩
      · cases h
    · split at h
      · cases h
      · cases h
  · rintro ⟨r, hr, hw, rfl, hwf⟩
    rw [decode, find?_selects_iff.2 ⟨hr, hw⟩]
    exact if_pos hwf

/-! ### Encoding and decoding undo each other -/

/-- The row of a command selects its word and builds it from that word. -/
theorem selected (i : Instr) : Laws.Selected.Statement i := by
  cases i with
  | nop => exact Laws.Selected.nop
  | prepare => exact Laws.Selected.prepare
  | start => exact Laws.Selected.start
  | oscSetfreq o => exact Laws.Selected.oscSetfreq o
  | oscSample o => exact Laws.Selected.oscSample o
  | oscStop o => exact Laws.Selected.oscStop o
  | oscStatus o => exact Laws.Selected.oscStatus o
  | oscRead o => exact Laws.Selected.oscRead o
  | wtWrite j => exact Laws.Selected.wtWrite j
  | wtRead j => exact Laws.Selected.wtRead j
  | cfWrite s k => exact Laws.Selected.cfWrite s k
  | cfRead s k => exact Laws.Selected.cfRead s k
  | cfSlope c n => exact Laws.Selected.cfSlope c n
  | cfCommit => exact Laws.Selected.cfCommit
  | cfStat => exact Laws.Selected.cfStat
  | bqProc ch => exact Laws.Selected.bqProc ch
  | bqProc2 => exact Laws.Selected.bqProc2
  | bqReset => exact Laws.Selected.bqReset
  | bqRdstate ch s j => exact Laws.Selected.bqRdstate ch s j
  | bqRdcoef s k => exact Laws.Selected.bqRdcoef s k

theorem decode_encode {i : Instr} (h : i.wellFormed = true) : decode (encode i) = .ok i :=
  let ⟨r, hr, hw, hb⟩ := selected i
  decode_eq_ok_iff.2 ⟨r, hr, hw, hb, h⟩

/-- Settles O1: the command's own row reads it back, and each format has the value of its fields at their places. -/
theorem decodeOfEncodeIsTheCommand : Obligations.DecodeOfEncodeIsTheCommand :=
  ⟨fun _ => decode_encode, encode_toNat⟩

/-- What a row builds from a word it selects encodes to that word. -/
theorem encode_build {r : Row} (hr : r ∈ rows) {w : Word} (hw : r.selects w = true) : encode (r.build w) = w := by
  obtain ⟨hopcode, hreserved⟩ := (selects_iff hr).1 hw
  apply BitVec.eq_of_toNat_eq
  rw [encode_toNat, (reads_of_mem_rows hr).value w hreserved, ← hopcode, ← toNat_eq_opcodeOf_add]

/-- Settles O2: the word is the one its row's command encodes to. -/
theorem encodeOfDecodeIsTheWord : Obligations.EncodeOfDecodeIsTheWord := by
  intro w i h
  obtain ⟨r, hr, hw, rfl, hwf⟩ := decode_eq_ok_iff.1 h
  exact ⟨encode_build hr hw, hwf⟩

/-- Settles O4: each word is the one its command encodes to. -/
theorem workedEncodingsDecode : Obligations.WorkedEncodingsDecode :=
  ⟨decode_encode (i := .oscSetfreq 69) rfl, decode_encode (i := .wtWrite 63) rfl, decode_encode (i := .cfWrite 5 0) rfl,
    decode_encode (i := .cfSlope .hc 3) rfl, decode_encode (i := .bqProc .right) rfl,
    decode_encode (i := .bqRdstate .right 4 .s2) rfl, decode_encode (i := .cfCommit) rfl⟩

/-! ### The illegal words (R76) -/

/-- The opcodes of a format (R73). -/
def Format.opcodes : Format → List Nat
  | .n => opcodesN
  | .o => opcodesO
  | .t => opcodesT
  | .c => opcodesC
  | .s => [0x32]
  | .f => [0x40]
  | .q => [0x43]

theorem opcode_mem_format_opcodes : ∀ r ∈ rows, r.opcode ∈ r.format.opcodes := by decide

theorem exists_row_of_mem_opcodes (fmt : Format) : ∀ p ∈ fmt.opcodes, ∃ r ∈ rows, r.format = fmt ∧ r.opcode = p := by
  cases fmt <;> decide

/-- An opcode has one format. -/
theorem format_unique {p : Nat} {a b : Format} (ha : p ∈ a.opcodes) (hb : p ∈ b.opcodes) : a = b := by
  obtain ⟨r, hr, rfl, hrp⟩ := exists_row_of_mem_opcodes a p ha
  obtain ⟨q, hq, rfl, hqp⟩ := exists_row_of_mem_opcodes b p hb
  rw [List.inj_on_of_nodup_map rows_opcode_nodup hr hq (hrp.trans hqp.symm)]

/-- No reserved bit of the format is set in these operand bits, and its fields are in range. -/
def Format.Legal (fmt : Format) (low : Nat) : Prop := low < 2 ^ fmt.fieldBits ∧ fmt.InRange low

/-- A word decodes to a command exactly when its operand bits are legal for the format of its opcode. -/
theorem exists_decode_iff {w : Word} :
    (∃ i, decode w = .ok i) ↔ ∃ fmt : Format, opcodeOf w ∈ fmt.opcodes ∧ fmt.Legal (operandBits w) := by
  constructor
  · rintro ⟨i, h⟩
    obtain ⟨r, hr, hw, rfl, hwf⟩ := decode_eq_ok_iff.1 h
    obtain ⟨hp, hreserved⟩ := (selects_iff hr).1 hw
    exact ⟨r.format, hp ▸ opcode_mem_format_opcodes r hr, hreserved, ((reads_of_mem_rows hr).wellFormed w).1 hwf⟩
  · rintro ⟨fmt, hp, hreserved, hrange⟩
    obtain ⟨r, hr, rfl, hrp⟩ := exists_row_of_mem_opcodes fmt _ hp
    exact ⟨r.build w, decode_eq_ok_iff.2 ⟨r, hr, (selects_iff hr).2 ⟨hrp.symm, hreserved⟩, rfl,
      ((reads_of_mem_rows hr).wellFormed w).2 hrange⟩⟩

/-- The operand bits that R76 makes illegal for a format: its cases 2 to 4. -/
def Format.Illegal : Format → Nat → Prop
  | .n, low => low ≠ 0
  | .o, low => 2 ^ 7 ≤ low
  | .t, low => 2 ^ 12 ≤ low
  | .c, low => 2 ^ 7 ≤ low ∨ 8 < low / 2 ^ 3 % 2 ^ 4 ∨ 4 < low % 2 ^ 3
  | .s, low => 2 ^ 3 ≤ low
  | .f, low => 2 ≤ low
  | .q, low => 2 ^ 6 ≤ low ∨ 8 < low / 2 % 2 ^ 4

theorem Format.illegal_iff (fmt : Format) (low : Nat) : fmt.Illegal low ↔ ¬ fmt.Legal low := by
  cases fmt <;> simp only [Format.Illegal, Format.Legal, Format.fieldBits, Format.InRange, and_true] <;> omega

/-- R76's list, said over the formats: no format has the opcode, or the operand bits are illegal for the one that has it. -/
theorem illegalWord_iff_format {w : Word} :
    illegalWord w ↔ (∀ fmt : Format, opcodeOf w ∉ fmt.opcodes) ∨
      ∃ fmt : Format, opcodeOf w ∈ fmt.opcodes ∧ fmt.Illegal (operandBits w) := by
  constructor
  · rintro (⟨hn, ho, ht, hc, hs, hf, hq⟩ | ⟨hp, h⟩ | ⟨hp, h⟩ | ⟨hp, h⟩ | ⟨hp, h⟩ | ⟨hp, h⟩ | ⟨hp, h⟩ | ⟨hp, h⟩)
    · refine .inl fun fmt => ?_
      cases fmt with
      | n => exact hn
      | o => exact ho
      | t => exact ht
      | c => exact hc
      | s => exact mt List.mem_singleton.1 hs
      | f => exact mt List.mem_singleton.1 hf
      | q => exact mt List.mem_singleton.1 hq
    · exact .inr ⟨.n, hp, h⟩
    · exact .inr ⟨.o, hp, h⟩
    · exact .inr ⟨.t, hp, h⟩
    · exact .inr ⟨.c, hp, h⟩
    · exact .inr ⟨.s, List.mem_singleton.2 hp, h⟩
    · exact .inr ⟨.f, List.mem_singleton.2 hp, h⟩
    · exact .inr ⟨.q, List.mem_singleton.2 hp, h⟩
  · rintro (hundef | ⟨fmt, hp, h⟩)
    · exact .inl ⟨hundef .n, hundef .o, hundef .t, hundef .c, mt List.mem_singleton.2 (hundef .s),
        mt List.mem_singleton.2 (hundef .f), mt List.mem_singleton.2 (hundef .q)⟩
    · cases fmt with
      | n => exact .inr (.inl ⟨hp, h⟩)
      | o => exact .inr (.inr (.inl ⟨hp, h⟩))
      | t => exact .inr (.inr (.inr (.inl ⟨hp, h⟩)))
      | c => exact .inr (.inr (.inr (.inr (.inl ⟨hp, h⟩))))
      | s => exact .inr (.inr (.inr (.inr (.inr (.inl ⟨List.mem_singleton.1 hp, h⟩)))))
      | f => exact .inr (.inr (.inr (.inr (.inr (.inr (.inl ⟨List.mem_singleton.1 hp, h⟩))))))
      | q => exact .inr (.inr (.inr (.inr (.inr (.inr (.inr ⟨List.mem_singleton.1 hp, h⟩))))))

/-- A word is illegal exactly when it decodes to nothing. -/
theorem illegalWord_iff {w : Word} : illegalWord w ↔ ¬ ∃ i, decode w = .ok i := by
  rw [illegalWord_iff_format, exists_decode_iff]
  constructor
  · rintro (hundef | ⟨fmt, hp, hill⟩) ⟨other, hother, hlegal⟩
    · exact hundef other hother
    · exact (fmt.illegal_iff _).1 hill (format_unique hother hp ▸ hlegal)
  · intro hnone
    by_cases hdef : ∃ fmt : Format, opcodeOf w ∈ fmt.opcodes
    · obtain ⟨fmt, hp⟩ := hdef
      exact .inr ⟨fmt, hp, (fmt.illegal_iff _).2 fun hlegal => hnone ⟨fmt, hp, hlegal⟩⟩
    · exact .inl (not_exists.1 hdef)

/-- Settles O3: the four cases are the words that decode to nothing, and those are E_ILLEGAL when issued. -/
theorem illegalWordsAreTheFourCases : Obligations.IllegalWordsAreTheFourCases := by
  refine ⟨fun w s hill => ?_, fun w hlegal => not_not.1 (mt illegalWord_iff.2 hlegal), decode_encode (i := .nop) rfl⟩
  obtain ⟨i, hi, -⟩ | ⟨e, -, he⟩ := issue_cases w s
  · exact absurd ⟨i, hi⟩ (illegalWord_iff.1 hill)
  · exact he

end Sys2Proof
end

section
/-! Commands whose fields name stages and coefficients: terms with a field out of range (R76), the hot swap (R146) and
BQ.RDSTATE (R167). -/

namespace Sys2Proof.Machine

/-! ### Fields out of range (R76) -/

theorem legalStage_of_stageOf {a : Fin 16} {st : Fin 9} (h : stageOf a = some st) : legalStage a = true := by
  cases hl : legalStage a with
  | true => rfl
  | false => rw [stageOf_illegal hl] at h; cases h

theorem legalCoef_of_coefOf {k : Fin 8} {c : Coef} (h : coefOf k = some c) : legalCoef k = true := by
  rw [← coefOf_isSome, h, Option.isSome_some]

theorem legalStage_and_legalCoef {a : Fin 16} {k : Fin 8} {st : Fin 9} {c : Coef} (ha : stageOf a = some st)
    (hk : coefOf k = some c) : (legalStage a && legalCoef k) = true := by
  rw [legalStage_of_stageOf ha, legalCoef_of_coefOf hk, Bool.and_self]

/-- The three commands of format C answer a SET or K out of range before anything else. -/
theorem exec_formatC_illegal {a : Fin 16} {k : Fin 8} {i : Instr} (hi : i ∈ [.cfWrite a k, .cfRead a k, .bqRdcoef a k])
    (h : (legalStage a && legalCoef k) = false) (s : State) : exec i s = .next (s.recordFault .illegal (encode i)) := by
  simp only [List.mem_cons, List.not_mem_nil, or_false] at hi
  obtain rfl | rfl | rfl := hi <;>
  · simp only [exec, execCfWrite, execCfRead, execBqRdcoef]
    refine runCommand_error (mem_anyMode _) ?_
    split
    · next ha hk => exact absurd (legalStage_and_legalCoef ha hk) (Bool.eq_false_iff.1 h)
    · rfl

theorem exec_bqRdstate_illegal {a : Fin 16} (h : legalStage a = false) (ch : Channel) (j : StateWord) (s : State) :
    exec (.bqRdstate ch a j) s = .next (s.recordFault .illegal (encode (.bqRdstate ch a j))) := by
  change execBqRdstate ch a j s = _
  refine runCommand_error (mem_anyMode _) ?_
  rw [stageOf_illegal h]

/-- Settles O18: four commands have field-range conditions, and each answers a field out of range first. -/
theorem fieldsOutOfRangeAreIllegal : Obligations.FieldsOutOfRangeAreIllegal := by
  intro i s h
  cases i with
  | cfWrite a k => exact exec_formatC_illegal (by simp) h s
  | cfRead a k => exact exec_formatC_illegal (by simp) h s
  | bqRdcoef a k => exact exec_formatC_illegal (by simp) h s
  | bqRdstate ch a j => exact exec_bqRdstate_illegal h ch j s
  | _ => cases h

/-! ### The hot swap (R146) -/

theorem exec_cfCommit (s : State) : exec .cfCommit s = .next s.committed := by
  change execCfCommit s = _
  exact runCommand_ok (mem_anyMode _) rfl

/-- After a commit the peak stage and the active cut stages hold their shadow sets, by stage number (R72, R146). -/
theorem State.committed_coef (s : State) (st : Fin 9) :
    s.committed.coef[st] =
      if st.val = 4 ∨ (st.val < 4 ∧ st.val < s.shslope.lc.toNat + 1) ∨
          (5 ≤ st.val ∧ st.val - 5 < s.shslope.hc.toNat + 1) then s.sh[st]
      else s.coef[st] := by
  obtain rfl | ⟨c, i, rfl⟩ := stage_cases st
  · rw [State.committed_coef_peak, if_pos (.inl rfl)]
  · rw [State.committed_coef_cut]
    refine if_congr ?_ rfl rfl
    cases c with
    | lc => simp only [cutStage, activeCount, PerChain.get]; omega
    | hc => simp only [cutStage, activeCount, PerChain.get]; omega

/-- Settles O41: the flags and the sets of the committed state, and its frame. -/
theorem commitSwapsTheActiveBank : Obligations.CommitSwapsTheActiveBank := fun s =>
  ⟨s.committed, exec_cfCommit s, fun i => ⟨s.committed_byp .lc i, s.committed_byp .hc i⟩, s.committed_coef, by
    rw [State.committed_frame]⟩

/-! ### Reading a delay word (R167) -/

theorem stageOf_stageField (st : Fin 9) : stageOf (stageField st) = some st := dif_pos st.isLt

theorem exec_bqRdstate (s : State) (ch : Channel) (st : Fin 9) (j : StateWord) :
    exec (.bqRdstate ch (stageField st) j) s = .next (s.setRes0 ((s.dly.get ch)[st].get j)) := by
  change execBqRdstate ch (stageField st) j s = _
  refine runCommand_ok (mem_anyMode _) ?_
  rw [stageOf_stageField]

/-- Settles O52: the field names its stage, and the command's only write is to RES0. -/
theorem rdstateShowsADelayWord : Obligations.RdstateShowsADelayWord := fun s ch st j =>
  ⟨exec_bqRdstate s ch st j, rfl, rfl, fun _ => ⟨rfl, rfl⟩⟩

end Sys2Proof.Machine
end

section
/-! The setup commands (40_setup.md): what NOP, PREPARE and START do, the illegal words of their opcodes, and the mode
transitions as a whole (R103). -/

namespace Sys2Proof.Machine

/-! ### The illegal words of format N (R76) -/

theorem issue_illegalWord {w : Word} (h : illegalWord w) (s : State) :
    issue w s = .next (s.recordFault .illegal w) := illegalWordsAreTheFourCases.1 w s h

/-- A format without fields has one legal word for each opcode (R71, R76). -/
theorem illegalWord_of_opcodeOf_eq {w v : Word} (hv : opcodeOf v ∈ opcodesN) (hlow : operandBits v = 0)
    (hop : opcodeOf w = opcodeOf v) (hne : w ≠ v) : illegalWord w := by
  refine .inr (.inl ⟨hop ▸ hv, fun hw => hne (BitVec.eq_of_toNat_eq ?_)⟩)
  calc w.toNat = opcodeOf w * 2 ^ 24 + operandBits w := toNat_eq_opcodeOf_add w
    _ = opcodeOf v * 2 ^ 24 + operandBits v := by rw [hop, hlow, operandBits, hw]
    _ = v.toNat := (toNat_eq_opcodeOf_add v).symm

/-! ### NOP (R100) -/

theorem exec_nop (s : State) : exec .nop s = .next s := by
  change execNop s = _
  exact runCommand_ok (mem_anyMode _) rfl

/-- Settles O19: the word 0 decodes to NOP, and no other word of its opcode is legal. -/
theorem nopChangesNothing : Obligations.NopChangesNothing := by
  refine ⟨rfl, exec_nop, fun s rest hp => ?write, fun w s hop hne => ?illegal⟩
  case write =>
    rw [(stepRunsTheDecodedCommand s 0x00000000 rest hp).1 .nop (decode_encode (i := .nop) rfl), exec_nop]
  case illegal => exact issue_illegalWord (illegalWord_of_opcodeOf_eq (v := 0x00000000) (by decide) rfl hop hne) s

/-! ### PREPARE (R101) -/

theorem exec_prepare_valid {s : State} (hr : validRate s.arg0 = true) (hb : validBlock s.arg1 = true) :
    exec .prepare s = .next s.prepared := by
  change execPrepare s = _
  exact runCommand_ok (mem_anyMode _) (if_pos (Bool.and_eq_true_iff.2 ⟨hr, hb⟩))

theorem exec_prepare_refused {s : State} (h : (validRate s.arg0 && validBlock s.arg1) = false) :
    exec .prepare s = .next s.prepareRefused := by
  change execPrepare s = _
  exact runCommand_ok (mem_anyMode _) (if_neg (Bool.eq_false_iff.1 h))

/-- The record and MODE are different parts of the state (R202). -/
theorem State.prepareRefused_eq (s : State) :
    s.prepareRefused = { s.recordFault .operand 0x01000000 with mode := .unprep } := by
  rw [State.prepareRefused, State.recordFault_eq, State.recordFault_eq]
  rfl

@[simp] theorem State.prepareRefused_mode (s : State) : s.prepareRefused.mode = .unprep := State.recordFault_mode _ _ _

theorem validRate_iff {w : Word} : validRate w = true ↔ isFinite w = true ∧ gtZero w = true := Bool.and_eq_true_iff

theorem validBlock_iff {w : Word} : validBlock w = true ↔ 0 < w.toInt := decide_eq_true_iff

/-- Settles O20: the updates of R101 one after the other, on operands that its checks accept. -/
theorem prepareOpensSetup : Obligations.PrepareOpensSetup := fun _ hfin hpos hblock =>
  exec_prepare_valid (validRate_iff.2 ⟨hfin, hpos⟩) (validBlock_iff.2 hblock)

/-- Settles O21: each of the three conditions fails one of R101's checks. -/
theorem prepareRefusesBadOperands : Obligations.PrepareRefusesBadOperands := by
  intro s hbad
  rw [← State.prepareRefused_eq]
  refine exec_prepare_refused (Bool.eq_false_iff.2 fun hvalid => ?_)
  obtain ⟨hrate, hblock⟩ := Bool.and_eq_true_iff.1 hvalid
  obtain ⟨hfin, hpos⟩ := validRate_iff.1 hrate
  obtain hinf | hnonpos | hle := hbad
  · exact Bool.eq_false_iff.1 hinf hfin
  · exact Bool.eq_false_iff.1 hnonpos hpos
  · exact absurd (validBlock_iff.1 hblock) (not_lt.2 hle)

/-! ### START (R102) -/

theorem exec_start_setup {s : State} (h : s.mode = .setup) : exec .start s = .next (s.setMode .run) := by
  change execStart s = _
  exact runCommand_ok (List.mem_singleton.2 h) rfl

theorem exec_start_elsewhere {s : State} (h : s.mode ≠ .setup) :
    exec .start s = .next (s.recordFault .mode 0x02000000) := by
  change execStart s = _
  exact runCommand_mode (mt List.mem_singleton.1 h)

/-- Settles O22: SETUP is the one mode in which START runs. -/
theorem startEntersRun : Obligations.StartEntersRun := fun _ => ⟨exec_start_setup, exec_start_elsewhere⟩

/-! ### The mode transitions (R103) -/

theorem State.recordFault_err_first {s : State} (h : s.err = 0) (c : FaultCode) (w : Word) :
    (s.recordFault c w).err = c.code := by
  rw [State.recordFault_err, if_pos h]

theorem Effect.mode_eq {s t : State} {i : Instr} (he : Effect s i t) (hprep : i ≠ .prepare) (hstart : i ≠ .start) :
    t.mode = s.mode := by
  cases he with
  | prepare => exact absurd rfl hprep
  | start => exact absurd rfl hstart
  | cfCommit => exact s.committed_mode
  | _ => rfl

/-- No command but PREPARE and START changes MODE (R103). -/
theorem exec_mode {i : Instr} {s t : State} (h : exec i s = .next t) (hprep : i ≠ .prepare) (hstart : i ≠ .start) :
    t.mode = s.mode := by
  obtain he | ⟨c, -, rfl⟩ | ⟨rfl, -⟩ := exec_cases h
  · exact he.mode_eq hprep hstart
  · exact State.recordFault_mode _ _ _
  · exact absurd rfl hprep

/-- No command but PREPARE leaves RUN: START is refused there (R102, R103). -/
theorem exec_stays_in_run {i : Instr} {s t : State} (hm : s.mode = .run) (h : exec i s = .next t)
    (hprep : i ≠ .prepare) : t.mode = .run := by
  by_cases hstart : i = .start
  · subst hstart
    rw [exec_start_elsewhere (by rw [hm]; decide)] at h
    cases h
    rw [State.recordFault_mode, hm]
  · rw [exec_mode h hprep hstart, hm]

theorem issue_stays_in_run {w : Word} {s t : State} (hm : s.mode = .run) (h : issue w s = .next t)
    (hprep : w ≠ encode .prepare) : t.mode = .run := by
  obtain ⟨i, hd, hi⟩ | ⟨e, -, he⟩ := issue_cases w s
  · refine exec_stays_in_run hm (hi ▸ h) ?_
    rintro rfl
    exact hprep (encodeOfDecodeIsTheWord w _ hd).1.symm
  · rw [he] at h
    cases h
    rw [State.recordFault_mode, hm]

theorem regAt_eq_cmd_iff {off : Byte} : regAt off = some .cmd ↔ off = 0x14 := by
  revert off; decide

/-- RUN is left only by reset or PREPARE (R103). -/
theorem serve_stays_in_run {e : HostEvent} {s t : State} (hm : s.mode = .run) (h : serve e s = .next t)
    (hreset : e ≠ .reset) (hprep : ¬ isPrepare e) : t.mode = .run := by
  cases e with
  | reset => exact absurd rfl hreset
  | read off =>
    cases h
    obtain ⟨r, -, hr⟩ | ⟨-, hr⟩ := busRead_cases off s
    · rw [hr]; exact hm
    · rw [hr]; exact (State.recordFault_mode _ _ _).trans hm
  | write off w be =>
    change busWrite off w be s = _ at h
    obtain ⟨-, hw⟩ | ⟨-, hw⟩ | ⟨hoff, rfl, hw⟩ | hw := busWrite_cases off w be s
    · rw [hw] at h; cases h; exact hm
    · rw [hw] at h; cases h; exact hm
    · obtain rfl := regAt_eq_cmd_iff.1 hoff
      refine issue_stays_in_run hm (hw ▸ h) ?_
      rintro rfl
      exact hprep rfl
    · rw [hw] at h; cases h; exact (State.recordFault_mode _ _ _).trans hm

/-- Settles O23: R103's rows are what reset, PREPARE and START answer, and the rest keeps MODE. -/
theorem modeTransitionTable : Obligations.ModeTransitionTable := by
  refine ⟨?reset, ?prepare, ?prepareRefused, ?prepareIllegal, ?start, ?startElsewhere, ?otherCommands, ?leavesRun⟩
  case reset =>
    intro s t hp h
    obtain ⟨rest, hp⟩ := List.head?_eq_some_iff.1 hp
    rw [step_of_pending hp] at h
    cases h
    rfl
  case prepare => exact fun s hr hb => ⟨_, exec_prepare_valid hr hb, rfl⟩
  case prepareRefused =>
    exact fun s h => ⟨_, exec_prepare_refused h, s.prepareRefused_mode, State.recordFault_fault _ _ _,
      fun herr => State.recordFault_err_first (s := s.setMode .unprep) herr _ _⟩
  case prepareIllegal =>
    intro w s hop hne
    have hill : illegalWord w := illegalWord_of_opcodeOf_eq (v := 0x01000000) (by decide) rfl hop hne
    exact ⟨_, issue_illegalWord hill s, State.recordFault_mode _ _ _, State.recordFault_fault _ _ _,
      fun herr => State.recordFault_err_first herr _ _⟩
  case start => exact fun s h => ⟨_, exec_start_setup h, rfl⟩
  case startElsewhere =>
    exact fun s h => ⟨_, exec_start_elsewhere h, State.recordFault_mode _ _ _, State.recordFault_fault _ _ _,
      fun herr => State.recordFault_err_first herr _ _⟩
  case otherCommands => exact fun i s t hprep hstart h => exec_mode h hprep hstart
  case leavesRun =>
    intro s t hm h hleft
    obtain ⟨-, rfl⟩ | ⟨e, rest, hp, he⟩ := step_cases h
    · exact absurd hm hleft
    · rw [hp, List.head?_cons]
      by_contra hother
      obtain ⟨hreset, hprep⟩ := not_or.1 hother
      exact hleft (serve_stays_in_run (s := { s with pending := rest }) hm he (mt (congrArg some) hreset)
        (mt (congrArg some) hprep))

end Sys2Proof.Machine
end

section
/-! The wavetable commands (41_wavetable.md): the order of WT.WRITE's checks (R110), what WT.READ answers (R111), and the
table in RUN (R112). -/

namespace Sys2Proof.Machine

/-! ### WT.WRITE (R110) -/

theorem exec_wtWrite_elsewhere {s : State} (i : Fin 4096) (hm : s.mode ≠ .setup) :
    exec (.wtWrite i) s = .next (s.recordFault .mode (encode (.wtWrite i))) := by
  change execWtWrite i s = _
  exact runCommand_mode (mt List.mem_singleton.1 hm)

theorem exec_wtWrite_range {s : State} {i : Fin 4096} (hm : s.mode = .setup) (hi : s.tblLen.val ≤ i.val) :
    exec (.wtWrite i) s = .next (s.recordFault .range (encode (.wtWrite i))) := by
  change execWtWrite i s = _
  exact runCommand_error (List.mem_singleton.2 hm) (if_pos hi)

theorem exec_wtWrite_operand {s : State} {i : Fin 4096} (hm : s.mode = .setup) (hi : i.val < s.tblLen.val)
    (hf : isFinite s.arg0 = false) :
    exec (.wtWrite i) s = .next (s.recordFault .operand (encode (.wtWrite i))) := by
  change execWtWrite i s = _
  refine runCommand_error (List.mem_singleton.2 hm) ?_
  rw [if_neg (not_le.2 hi), if_neg (Bool.eq_false_iff.1 hf)]

/-- Settles O25: each check is reached only when those before it have passed. -/
theorem wtWriteChecksInOrder : Obligations.WtWriteChecksInOrder := fun _ i =>
  ⟨exec_wtWrite_elsewhere i, exec_wtWrite_range, exec_wtWrite_operand⟩

/-! ### WT.READ (R111) -/

theorem exec_wtRead_written {s : State} {i : Fin 4096} {v : Word} (hi : i.val < s.tblLen.val)
    (hv : s.tbl.read i.val = some v) : exec (.wtRead i) s = .next (s.setRes0 v) := by
  change execWtRead i s = _
  refine runCommand_ok (mem_anyMode _) ?_
  rw [if_neg (not_le.2 hi), hv]

theorem exec_wtRead_range {s : State} {i : Fin 4096} (hi : s.tblLen.val ≤ i.val) :
    exec (.wtRead i) s = .next (s.recordFault .range (encode (.wtRead i))) := by
  change execWtRead i s = _
  exact runCommand_error (mem_anyMode _) (if_pos hi)

theorem exec_wtRead_unwritten {s : State} {i : Fin 4096} (hi : i.val < s.tblLen.val)
    (hv : s.tbl.read i.val = none) :
    exec (.wtRead i) s = .next (s.recordFault .unwritten (encode (.wtRead i))) := by
  change execWtRead i s = _
  refine runCommand_error (mem_anyMode _) ?_
  rw [if_neg (not_le.2 hi), hv]

/-- Settles O26: the command runs in every mode, and its two checks leave three cases. -/
theorem wtReadReturnsTheEntry : Obligations.WtReadReturnsTheEntry := fun _ _ =>
  ⟨fun _ => exec_wtRead_written, exec_wtRead_range, exec_wtRead_unwritten⟩

/-! ### The table in RUN (R112) -/

/-- Outside SETUP, PREPARE is the one command that writes the table: WT.WRITE is refused there, and no other command has
the table among its effects. -/
theorem exec_tbl_outside_setup {i : Instr} {s t : State} (hm : s.mode ≠ .setup) (hprep : i ≠ .prepare)
    (h : exec i s = .next t) : t.tbl = s.tbl := by
  by_cases hwrite : ∃ j, i = .wtWrite j
  · obtain ⟨j, rfl⟩ := hwrite
    rw [exec_wtWrite_elsewhere j hm] at h
    cases h
    exact State.recordFault_tbl _ _ _
  · exact exec_keeps State.tbl h State.recordFault_tbl State.setMode_tbl (·.tbl_eq hprep (not_exists.1 hwrite))

theorem State.prepared_read (s : State) (i : Nat) : s.prepared.tbl.read i = none := Memory.read_empty i

/-- Settles O27: RUN is not SETUP, and PREPARE leaves the empty table. -/
theorem tableIsImmutableInRun : Obligations.TableIsImmutableInRun := by
  have hrun {s : State} (hm : s.mode = .run) : s.mode ≠ .setup := by rw [hm]; decide
  exact ⟨fun _ _ _ hm hprep => exec_tbl_outside_setup (hrun hm) hprep,
    fun i _ hm => exec_wtWrite_elsewhere i (hrun hm),
    fun s _ hr hb => ⟨s.prepared, exec_prepare_valid hr hb, s.prepared_read⟩⟩

end Sys2Proof.Machine
end

section
/-! Exact binary32 arithmetic (R9): the products and sums with a zero or 1.0 that need no rounding, which a sample at an
integer phase (R129) and a refused frequency (R123) come down to. -/

namespace Sys2Proof.Machine

/-! ### Values and zeros -/

theorem valOf_eq_magOf {w : Word} (h : 0 ≤ valOf w) : valOf w = magOf w := by
  have hmag := signedMag_natAbs (signBit w) (magOf w)
  rw [← valOf_eq] at hmag
  omega

theorem isZero_packSign_zero (s : Bool) : isZero (packSign s 0) := by
  cases s
  · exact .inl rfl
  · exact .inr rfl

theorem isZero_fields {z : Word} (h : isZero z) : isFinite z = true ∧ magOf z = 0 := by
  obtain rfl | rfl := h <;> decide

theorem gtZero_of_isZero {z : Word} (h : isZero z) : gtZero z = false := by
  obtain rfl | rfl := h <;> decide

/-- A finite number of magnitude 0 is one of the two zeros. -/
theorem isZero_of_magOf_eq_zero {w : Word} (hf : isFinite w = true) (h : magOf w = 0) : isZero w := by
  rw [← packSign_self w, magBits_eq_zero.1 ((magOf_of_finite hf).symm.trans h)]
  exact isZero_packSign_zero _

theorem roundMag_zero {d : Nat} (hd : 0 < d) : roundMag 0 d = 0 := by
  simpa using roundMag_magBits (r := 0) (by decide) hd

theorem floatOfNat_zero : floatOfNat 0 = 0 := by
  rw [floatOfNat, Nat.zero_mul, roundWord_zero]
  rfl

/-! ### Products and quotients -/

/-- A zero times a finite number is a zero, whose sign is the product's (R9). -/
theorem isZero_fmul {a b : Word} (ha : isZero a) (hb : isFinite b = true) : isZero (fmul a b) := by
  obtain ⟨haf, ha0⟩ := isZero_fields ha
  rw [fmul_of_finite haf hb, ha0, Nat.zero_mul, roundMag_zero (by positivity)]
  exact isZero_packSign_zero _

/-- A zero divided by anything is a zero or the canonical NaN (R9, R10). -/
theorem isZero_fdiv_or_qnan {a : Word} (ha : isZero a) (b : Word) : isZero (fdiv a b) ∨ fdiv a b = qnan := by
  rw [fdiv, f32_of_isZero ha]
  cases f32 b with
  | nan => exact .inr rfl
  | inf t => exact .inl (isZero_packSign_zero _)
  | fin t n =>
    by_cases h0 : n = 0
    · exact .inr (if_pos h0)
    · left
      simp only [if_neg h0, Nat.zero_mul, roundWord, roundMag_zero (Nat.pos_of_ne_zero h0)]
      exact isZero_packSign_zero _

theorem one_fields : isFinite one = true ∧ signBit one = false ∧ magOf one = 2 ^ 149 := by decide +kernel

theorem one_fmul {a : Word} (ha : isFinite a = true) : fmul one a = a := by
  obtain ⟨hf, hs, hm⟩ := one_fields
  rw [fmul_of_finite hf ha, hs, Bool.false_bne, hm, mul_comm, magOf_of_finite ha,
    roundMag_magBits ((isFinite_iff a).1 ha) (by positivity), packSign_self]

/-! ### Sums and differences -/

/-- Rounding the exact value of a finite word gives the word back. -/
theorem roundWord_magOf {a : Word} (ha : isFinite a = true) : roundWord (signBit a) (magOf a) 1 = a := by
  rw [roundWord, magOf_of_finite ha, roundMag_magBits_one ((isFinite_iff a).1 ha), packSign_self]

/-- A zero of either sign is neutral on what a table holds; the one exception of R9 is -0.0 plus +0.0. -/
theorem fadd_isZero {a z : Word} (ha : entryOk a) (hz : isZero z) : fadd a z = a := by
  obtain ⟨haf, hne⟩ := ha
  obtain ⟨hzf, hz0⟩ := isZero_fields hz
  rw [fadd_of_finite haf hzf, hz0, addFin]
  split
  · exact roundWord_magOf haf
  · split
    · exact roundWord_magOf haf
    · next hpos =>
      have ha0 : isZero a := isZero_of_magOf_eq_zero haf (Nat.eq_zero_of_not_pos hpos)
      rw [if_neg (Nat.not_lt_zero _)]
      exact (ha0.resolve_right hne).symm

theorem fsub_self {a : Word} (ha : isFinite a = true) : fsub a a = 0 := by
  have hsum : signedMag (signBit a) (magOf a) + signedMag (!signBit a) (magOf a) = 0 := by
    rw [signedMag_not, add_neg_cancel]
  rw [fsub_of_finite ha ha, addFin_of_eq_zero hsum, Bool.and_not_self]
  rfl

theorem one_fsub_zero : fsub one 0 = one := by decide +kernel

end Sys2Proof.Machine
end

section
/-! The oscillator commands (42_oscillator.md): what OSC.SETFREQ, OSC.SAMPLE, OSC.STOP and OSC.READ answer, case by case, and
the sample at an integer phase. -/

namespace Sys2Proof.Machine

/-- The two modes of OSC.SETFREQ and OSC.STOP (R201). -/
theorem mem_setup_run {m : Mode} : m ∈ [Mode.setup, Mode.run] ↔ m ≠ .unprep := by cases m <;> decide

/-! ### OSC.READ (R127) -/

theorem exec_oscRead (s : State) (o : Fin 128) :
    exec (.oscRead o) s = .next ((s.setRes0 s.phase[o]).setRes1 s.inc[o]) := by
  change execOscRead o s = _
  exact runCommand_ok (mem_anyMode _) rfl

/-- Settles O37: the command's two writes, in any mode. -/
theorem readShowsTheOscillator : Obligations.ReadShowsTheOscillator := exec_oscRead

/-! ### OSC.STOP (R125) -/

theorem exec_oscStop {s : State} (o : Fin 128) (hm : s.mode ≠ .unprep) :
    exec (.oscStop o) s = .next ((s.setPhase o 0).setInc o 0) := by
  change execOscStop o s = _
  exact runCommand_ok (mem_setup_run.2 hm) rfl

theorem exec_oscStop_unprep {s : State} (o : Fin 128) (hm : s.mode = .unprep) :
    exec (.oscStop o) s = .next (s.recordFault .mode (encode (.oscStop o))) := by
  change execOscStop o s = _
  exact runCommand_mode fun h => mem_setup_run.1 h hm

theorem State.stop_idem (s : State) (o : Fin 128) :
    (((s.setPhase o 0).setInc o 0).setPhase o 0).setInc o 0 = (s.setPhase o 0).setInc o 0 := by
  simp [State.setPhase, State.setInc]

/-- Settles O35: the second OSC.STOP writes the words that the first has written. -/
theorem stopSilencesOneOscillator : Obligations.StopSilencesOneOscillator := by
  refine fun s o => ⟨fun hm => ⟨exec_oscStop o hm, ?_⟩, exec_oscStop_unprep o⟩
  have hagain := exec_oscStop (s := (s.setPhase o 0).setInc o 0) o hm
  rwa [s.stop_idem] at hagain

/-! ### OSC.SETFREQ (R120, R123) -/

theorem validFreq_iff {w : Word} : validFreq w = true ↔ isFinite w = true ∧ geZero w = true := Bool.and_eq_true_iff

theorem validInc_iff {w : Word} : validInc w = true ↔ isFinite w = true ∧ gtZero w = true := Bool.and_eq_true_iff

theorem exec_oscSetfreq {s : State} (o : Fin 128) (hm : s.mode ≠ .unprep) (hf : validFreq s.arg0 = true)
    (hx : validInc (incOf s.tblLen s.sr s.arg0) = true) :
    exec (.oscSetfreq o) s = .next (s.setInc o (incOf s.tblLen s.sr s.arg0)) := by
  change execOscSetfreq o s = _
  refine runCommand_ok (mem_setup_run.2 hm) ?_
  rw [if_pos hf, if_pos hx]

theorem exec_oscSetfreq_unprep {s : State} (o : Fin 128) (hm : s.mode = .unprep) :
    exec (.oscSetfreq o) s = .next (s.recordFault .mode (encode (.oscSetfreq o))) := by
  change execOscSetfreq o s = _
  exact runCommand_mode fun h => mem_setup_run.1 h hm

/-- Both checks of R123 raise the same fault. -/
theorem exec_oscSetfreq_operand {s : State} (o : Fin 128) (hm : s.mode ≠ .unprep)
    (h : ¬ (validFreq s.arg0 = true ∧ validInc (incOf s.tblLen s.sr s.arg0) = true)) :
    exec (.oscSetfreq o) s = .next (s.recordFault .operand (encode (.oscSetfreq o))) := by
  change execOscSetfreq o s = _
  refine runCommand_error (mem_setup_run.2 hm) ?_
  split
  · next hf => exact if_neg fun hx => h ⟨hf, hx⟩
  · rfl

/-- The frequency 0 gives no positive increment, whatever SR holds (R123). -/
theorem gtZero_incOf_of_isZero (len : TblLen) (sr : Word) {f : Word} (hf : isZero f) :
    gtZero (incOf len sr f) = false := by
  obtain ⟨hlen, -, -⟩ := floatOfNat_exact (n := len.val) (le_trans len.le (by norm_num))
  obtain hz | hn := isZero_fdiv_or_qnan (isZero_fmul hf hlen) sr
  · exact gtZero_of_isZero hz
  · rw [incOf, hn]
    decide

/-- Settles O28: the two checks of R123 hold, and the one write is to INC. -/
theorem setfreqWritesTheIncrement : Obligations.SetfreqWritesTheIncrement := by
  rintro s o x hm hfin hge rfl hxfin hxpos
  exact exec_oscSetfreq o hm (validFreq_iff.2 ⟨hfin, hge⟩) (validInc_iff.2 ⟨hxfin, hxpos⟩)

/-- Settles O29: each condition fails one of the two checks; a zero frequency fails the second. -/
theorem setfreqRefusals : Obligations.SetfreqRefusals := by
  refine fun s o => ⟨exec_oscSetfreq_unprep o, fun hm hbad => ?bad, fun hm hzero => ?zero⟩
  case bad =>
    refine exec_oscSetfreq_operand o hm fun ⟨hf, hx⟩ => ?_
    obtain ⟨hfin, hge⟩ := validFreq_iff.1 hf
    obtain ⟨hxfin, hxpos⟩ := validInc_iff.1 hx
    obtain h | h | h | h := hbad
    · exact Bool.eq_false_iff.1 h hfin
    · exact Bool.eq_false_iff.1 h hge
    · exact Bool.eq_false_iff.1 h hxfin
    · exact Bool.eq_false_iff.1 h hxpos
  case zero =>
    refine exec_oscSetfreq_operand o hm fun ⟨_, hx⟩ => ?_
    exact Bool.eq_false_iff.1 (gtZero_incOf_of_isZero s.tblLen s.sr hzero) (validInc_iff.1 hx).2

/-! ### OSC.SAMPLE (R121, R122, R124) -/

theorem exec_oscSample {s : State} (o : Fin 128) (hm : s.mode = .run) (hfull : s.tblFull = true) :
    exec (.oscSample o) s =
      .next ((s.setRes0 (interp s.tblLen s.tbl s.phase[o])).setPhase o (advance s.tblLen s.phase[o] s.inc[o])) := by
  change execOscSample o s = _
  exact runCommand_ok (List.mem_singleton.2 hm) (if_pos hfull)

theorem exec_oscSample_elsewhere {s : State} (o : Fin 128) (hm : s.mode ≠ .run) :
    exec (.oscSample o) s = .next (s.recordFault .mode (encode (.oscSample o))) := by
  change execOscSample o s = _
  exact runCommand_mode (mt List.mem_singleton.1 hm)

theorem exec_oscSample_table {s : State} (o : Fin 128) (hm : s.mode = .run) (hfull : s.tblFull = false) :
    exec (.oscSample o) s = .next (s.recordFault .table (encode (.oscSample o))) := by
  change execOscSample o s = _
  exact runCommand_error (List.mem_singleton.2 hm) (if_neg (Bool.eq_false_iff.1 hfull))

theorem State.tblFull_eq_false {s : State} {i : Nat} (hi : i < s.tblLen.val) (hnone : s.tbl.read i = none) :
    s.tblFull = false := by
  refine Bool.eq_false_iff.2 fun hfull => ?_
  obtain ⟨v, hv⟩ := (Memory.full_iff _ _).1 hfull i hi
  rw [hnone] at hv
  cases hv

/-- Settles O31: an unwritten entry below L is what the check of R124 looks for. -/
theorem sampleRefusals : Obligations.SampleRefusals := fun _ o =>
  ⟨exec_oscSample_elsewhere o, fun _ hm hi hnone => exec_oscSample_table o hm (State.tblFull_eq_false hi hnone)⟩

/-- The range of R121 is that of the value. -/
theorem inTable_iff {len : TblLen} {w : Word} (hf : isFinite w = true) :
    inTable len w = true ↔ 0 ≤ valOf w ∧ valOf w < len.val * 2 ^ 149 := by
  rw [inTable, hf, Bool.true_and, Bool.and_eq_true, geZero_iff hf, decide_eq_true_eq]
  refine and_congr_right fun h => ?_
  rw [valOf_eq_magOf h]
  norm_cast

/-- Inside the table, with both entries written, the sample is the sum of R121. -/
theorem interp_eq_blend {len : TblLen} {tbl : Memory} {p lo hi : Word} (hp : inTable len p = true)
    (hlo : tbl.read (floorN p) = some lo) (hhi : tbl.read ((floorN p + 1) % len.val) = some hi) :
    interp len tbl p = blend p (floorN p) lo hi := by
  rw [interp, if_pos hp, hlo, hhi]

/-- Settles O30: the phase is inside the table, so that the sample written is the sum of R121. -/
theorem sampleInterpolatesAndAdvances : Obligations.SampleInterpolatesAndAdvances := by
  rintro s o lo hi _ _ hm hfull hfin hge hlt hlo hhi rfl rfl
  rw [exec_oscSample o hm hfull, interp_eq_blend ((inTable_iff hfin).2 ⟨hge, hlt⟩) hlo hhi]
  rfl

/-! ### The sample at an integer phase (R129, R130) -/

section
variable {len : TblLen} {k : Nat} (hk : k < len.val)
include hk

theorem floatOfNat_index : isFinite (floatOfNat k) = true ∧ signBit (floatOfNat k) = false ∧
    magOf (floatOfNat k) = k * 2 ^ 149 :=
  floatOfNat_exact (le_trans hk.le (le_trans len.le (by norm_num)))

theorem floorN_floatOfNat : floorN (floatOfNat k) = k := by
  obtain ⟨-, -, hmag⟩ := floatOfNat_index hk
  rw [floorN, hmag, Nat.mul_div_cancel _ (by positivity)]

theorem inTable_floatOfNat : inTable len (floatOfNat k) = true := by
  obtain ⟨hf, hs, hmag⟩ := floatOfNat_index hk
  rw [inTable_iff hf, valOf_eq, hs, hmag, signedMag_false]
  have : k * 2 ^ 149 < len.val * 2 ^ 149 := Nat.mul_lt_mul_of_pos_right hk (by positivity)
  exact ⟨Int.natCast_nonneg _, by exact_mod_cast this⟩

/-- The weights are 1.0 and +0, so that the upper product is a zero and the sum is the lower entry (R129). -/
theorem blend_floatOfNat {lo hi : Word} (hlo : entryOk lo) (hhi : isFinite hi = true) :
    blend (floatOfNat k) k lo hi = lo := by
  rw [blend, fsub_self (floatOfNat_index hk).1, one_fsub_zero, one_fmul hlo.1]
  exact fadd_isZero hlo (isZero_fmul (.inl rfl) hhi)

/-- At the phase k the sample is the word of TBL[k] (R129). -/
theorem interp_floatOfNat {tbl : Memory} {lo hi : Word} (hlo : tbl.read k = some lo)
    (hhi : tbl.read ((k + 1) % len.val) = some hi) (hlook : entryOk lo) (hhifin : isFinite hi = true) :
    interp len tbl (floatOfNat k) = lo := by
  have hfloor := floorN_floatOfNat hk
  rw [interp_eq_blend (inTable_floatOfNat hk) (by rwa [hfloor]) (by rwa [hfloor]), hfloor,
    blend_floatOfNat hk hlook hhifin]

end

/-- A full table has both entries that R121 reads, and the invariant says which words they can be. -/
theorem State.Inv.entries {s : State} (h : s.Inv) (hfull : s.tblFull = true) {k : Nat} (hk : k < s.tblLen.val) :
    ∃ lo hi, s.tbl.read k = some lo ∧ s.tbl.read ((k + 1) % s.tblLen.val) = some hi ∧ entryOk lo ∧ entryOk hi := by
  have hwritten := (Memory.full_iff _ _).1 hfull
  obtain ⟨lo, hlo⟩ := hwritten k hk
  obtain ⟨hi, hhi⟩ := hwritten _ (Nat.mod_lt (k + 1) s.tblLen.pos)
  exact ⟨lo, hi, hlo, hhi, (h.tbl_ok _ _ hlo).2, (h.tbl_ok _ _ hhi).2⟩

/-- Settles O32: an index is exact in binary32, and the arithmetic of R121 needs no rounding there. -/
theorem sampleIsExactAtIntegerPhase : Obligations.SampleIsExactAtIntegerPhase := by
  intro s o k hinv hm hfull hk hphase
  obtain ⟨lo, hi, hlo, hhi, hlook, hhiok⟩ := hinv.entries hfull hk
  rw [hphase]
  refine ⟨floorN_floatOfNat hk, fsub_self (floatOfNat_index hk).1, one_fsub_zero, _, lo, hi,
    exec_oscSample o hm hfull, hlo, hhi, one_fmul hlook.1, isZero_fmul (.inl rfl) hhiok.1, fadd_isZero hlook (.inl rfl),
    fadd_isZero hlook (.inr rfl), hlook.2, fadd_isZero ⟨by decide, by decide⟩ (.inr rfl), ?_⟩
  rw [State.setPhase_res0, State.setRes0_res0, hphase]
  exact interp_floatOfNat hk hlo hhi hlook hhiok.1

/-- Settles O33: +0 is the integer phase 0, and the advance of a stopped oscillator is +0. -/
theorem sampleAfterStopIsEntryZero : Obligations.SampleAfterStopIsEntryZero := by
  refine ⟨fun s o hm => ?stop, fun s o hinv hm hfull hphase hinc => ?sample⟩
  case stop => exact ⟨_, exec_oscStop o hm, by simp, by simp⟩
  case sample =>
    have hk : 0 < s.tblLen.val := s.tblLen.pos
    obtain ⟨lo, hi, hlo, hhi, hlook, hhiok⟩ := hinv.entries hfull hk
    refine ⟨_, exec_oscSample o hm hfull, ?_, ?_, hinc⟩
    · rw [State.setPhase_res0, State.setRes0_res0, hphase, ← floatOfNat_zero,
        interp_floatOfNat hk hlo hhi hlook hhiok.1, hlo]
    · rw [State.setPhase_phase, Fin.getElem_fin, Vector.getElem_set_self, hphase, hinc, advance_zero]

end Sys2Proof.Machine
end

section
/-! The coefficient loader (43_coef_loader.md): what each of its commands answers, the flags and sets that a commit leaves for
the next one, the word of CF.STAT, and that the shadow bank is not read by the filter commands. -/

namespace Sys2Proof.Machine

theorem coefOf_coefField (k : Coef) : coefOf (coefField k) = some k := by cases k <;> rfl

/-! ### CF.WRITE (R143) -/

theorem State.setShadow_sh_same (s : State) (st : Fin 9) (k : Coef) (v : Word) :
    (s.setShadow st k v).sh[st] = s.sh[st].set k v := by
  rw [State.setShadow_sh, Fin.getElem_fin, Vector.getElem_set_self]

theorem State.setShadow_sh_other (s : State) {st st' : Fin 9} (h : st' ≠ st) (k : Coef) (v : Word) :
    (s.setShadow st k v).sh[st'] = s.sh[st'] := by
  rw [State.setShadow_sh, Fin.getElem_fin, Vector.getElem_set_ne _ _ fun e => h (Fin.ext e.symm)]
  rfl

theorem exec_cfWrite {s : State} (st : Fin 9) (k : Coef) (hf : isFinite s.arg0 = true) :
    exec (.cfWrite (stageField st) (coefField k)) s = .next (s.setShadow st k s.arg0) := by
  change execCfWrite (stageField st) (coefField k) s = _
  refine runCommand_ok (mem_anyMode _) ?_
  rw [stageOf_stageField, coefOf_coefField]
  exact if_pos hf

theorem exec_cfWrite_operand {s : State} (st : Fin 9) (k : Coef) (hf : isFinite s.arg0 = false) :
    exec (.cfWrite (stageField st) (coefField k)) s =
      .next (s.recordFault .operand (encode (.cfWrite (stageField st) (coefField k)))) := by
  change execCfWrite (stageField st) (coefField k) s = _
  refine runCommand_error (mem_anyMode _) ?_
  rw [stageOf_stageField, coefOf_coefField]
  exact if_neg (Bool.eq_false_iff.1 hf)

/-- Settles O38: legal fields name their stage and coefficient, and the one write is to that shadow word. -/
theorem cfWriteStagesOneCoefficient : Obligations.CfWriteStagesOneCoefficient := by
  refine fun s st k => ⟨fun hf => ⟨_, exec_cfWrite st k hf, ?same, fun j hj => ?other, fun st' hst' => ?stage, rfl⟩,
    exec_cfWrite_operand st k⟩
  case same => rw [State.setShadow_sh_same, CoefSet.get_set_same]
  case other => rw [State.setShadow_sh_same, CoefSet.get_set_other _ _ hj]
  case stage => exact s.setShadow_sh_other hst' k s.arg0

/-! ### CF.READ and BQ.RDCOEF (R144, R168) -/

theorem exec_cfRead (s : State) (st : Fin 9) (k : Coef) :
    exec (.cfRead (stageField st) (coefField k)) s = .next (s.setRes0 (s.sh[st].get k)) := by
  change execCfRead (stageField st) (coefField k) s = _
  refine runCommand_ok (mem_anyMode _) ?_
  rw [stageOf_stageField, coefOf_coefField]

theorem exec_bqRdcoef (s : State) (st : Fin 9) (k : Coef) :
    exec (.bqRdcoef (stageField st) (coefField k)) s = .next (s.setRes0 (s.coef[st].get k)) := by
  change execBqRdcoef (stageField st) (coefField k) s = _
  refine runCommand_ok (mem_anyMode _) ?_
  rw [stageOf_stageField, coefOf_coefField]

/-- Settles O39: the two reads differ in the bank only, and each writes RES0 alone. -/
theorem coefficientReads : Obligations.CoefficientReads := fun s st k =>
  ⟨exec_cfRead s st k, exec_bqRdcoef s st k, fun _ => ⟨rfl, rfl, rfl, rfl, rfl⟩⟩

/-! ### CF.SLOPE (R145) -/

theorem exec_cfSlope (s : State) (c : Chain) (n : BitVec 2) : exec (.cfSlope c n) s = .next (s.setSlope c n) := by
  change execCfSlope c n s = _
  exact runCommand_ok (mem_anyMode _) rfl

/-- Settles O40: the command's one write, for each chain. -/
theorem cfSlopeStagesTheSlope : Obligations.CfSlopeStagesTheSlope := fun s n => ⟨exec_cfSlope s .lc n, exec_cfSlope s .hc n⟩

/-! ### Committing again (R146, R147) -/

/-- The flags that a commit gives a chain of this slope code: Bypassed from the active count on (R147.1). -/
def bypOfSlope (n : BitVec 2) : Vector Bool 4 := Vector.ofFn fun i => decide (activeCount n ≤ i.val)

theorem State.committed_byp_get (s : State) (c : Chain) : s.committed.byp.get c = bypOfSlope (s.shslope.get c) := by
  refine Vector.ext fun i hi => ?_
  rw [bypOfSlope, Vector.getElem_ofFn]
  exact s.committed_byp c ⟨i, hi⟩

/-- The flags after a commit depend on the shadow slopes alone. -/
theorem State.committed_byp_eq (s : State) : s.committed.byp = ⟨bypOfSlope s.shslope.lc, bypOfSlope s.shslope.hc⟩ :=
  congrArg₂ PerChain.mk (s.committed_byp_get .lc) (s.committed_byp_get .hc)

/-- The stages that a second commit loads are those of the first, and they hold their shadow sets already. -/
theorem State.committed_committed_coef (s : State) : s.committed.committed.coef = s.committed.coef := by
  refine Vector.ext fun i hi => ?_
  have hagain := s.committed.committed_coef ⟨i, hi⟩
  rw [State.committed_shslope, State.committed_sh] at hagain
  exact hagain.trans (ite_eq_right_iff.2 fun hload => ((s.committed_coef ⟨i, hi⟩).trans (if_pos hload)).symm)

theorem State.committed_committed_byp (s : State) : s.committed.committed.byp = s.committed.byp := by
  rw [State.committed_byp_eq, State.committed_shslope, ← State.committed_byp_eq]

theorem State.committed_committed (s : State) : s.committed.committed = s.committed := by
  rw [s.committed.committed_frame, s.committed_committed_coef, s.committed_committed_byp]

/-- Settles O42: a commit leaves the shadow bank, so that the next one writes the same sets and flags. -/
theorem commitIsIdempotent : Obligations.CommitIsIdempotent := fun s =>
  ⟨s.committed, exec_cfCommit s, by rw [exec_cfCommit, State.committed_committed]⟩

/-- The flags of a chain after its slope is staged and committed, whatever they were before. -/
theorem State.setSlope_committed_byp (s : State) (c : Chain) (n : BitVec 2) :
    (s.setSlope c n).committed.byp.get c = bypOfSlope n := by
  rw [State.committed_byp_get, State.setSlope_shslope, PerChain.get_set_same]

/-- Settles O43: the second commit's flags are those of the code 0, and nothing of the code 3 is left. -/
theorem slopeUpAndDownLeavesStageZero : Obligations.SlopeUpAndDownLeavesStageZero := by
  refine fun s c => ⟨_, _, _, _, exec_cfSlope s c 3, exec_cfCommit _, ?up, exec_cfSlope _ c 0, exec_cfCommit _, ?down⟩
  case up => rw [State.setSlope_committed_byp]; decide
  case down => rw [State.setSlope_committed_byp]; decide

/-! ### CF.STAT (R148) -/

theorem exec_cfStat (s : State) : exec .cfStat s = .next (s.setRes0 s.cfStatWord) := by
  change execCfStat s = _
  exact runCommand_ok (mem_anyMode _) rfl

theorem bypBits_getLsbD (b : Vector Bool 4) (i : Fin 4) : (bypBits b).getLsbD i.val = b[i] := by
  simp only [bypBits, BitVec.getLsbD_append, BitVec.getLsbD_ofBool]
  fin_cases i <;> rfl

theorem cfStatWord_lc_flags (s : State) (i : Fin 4) : s.cfStatWord.getLsbD i.val = s.byp.lc[i] := by
  rw [State.cfStatWord, BitVec.getLsbD_append, if_pos i.isLt, bypBits_getLsbD]

theorem cfStatWord_hc_flags (s : State) (i : Fin 4) : s.cfStatWord.getLsbD (4 + i.val) = s.byp.hc[i] := by
  rw [State.cfStatWord, BitVec.getLsbD_append, if_neg (by omega), Nat.add_sub_cancel_left, BitVec.getLsbD_append,
    if_pos i.isLt, bypBits_getLsbD]

/-- The bits above the flags are those of the slopes' part of the word. -/
theorem cfStatWord_above_flags (s : State) {start : Nat} (h : 8 ≤ start) (len : Nat) :
    s.cfStatWord.extractLsb' start len =
      (0#18 ++ s.shslope.hc ++ 0#2 ++ s.shslope.lc).extractLsb' (start - 4 - 4) len := by
  rw [State.cfStatWord, BitVec.extractLsb'_append_eq_of_le (by omega), BitVec.extractLsb'_append_eq_of_le (by omega)]

theorem cfStatWord_lc_slope (s : State) : s.cfStatWord.extractLsb' 8 2 = s.shslope.lc := by
  rw [cfStatWord_above_flags s le_rfl]
  exact BitVec.extractLsb'_append_eq_right

theorem cfStatWord_hc_slope (s : State) : s.cfStatWord.extractLsb' 12 2 = s.shslope.hc := by
  rw [cfStatWord_above_flags s (by norm_num), BitVec.extractLsb'_append_eq_of_le (by norm_num),
    BitVec.extractLsb'_append_eq_of_le (by norm_num)]
  exact BitVec.extractLsb'_append_eq_right

theorem cfStatWord_zero_between (s : State) : s.cfStatWord.extractLsb' 10 2 = 0 := by
  rw [cfStatWord_above_flags s (by norm_num), BitVec.extractLsb'_append_eq_of_le (by norm_num)]
  exact BitVec.extractLsb'_append_eq_right

theorem cfStatWord_zero_above (s : State) : s.cfStatWord.extractLsb' 14 18 = 0 := by
  rw [cfStatWord_above_flags s (by norm_num), BitVec.extractLsb'_append_eq_of_le (by norm_num),
    BitVec.extractLsb'_append_eq_of_le (by norm_num), BitVec.extractLsb'_append_eq_of_le (by norm_num)]
  rfl

theorem cfStatWord_resetOf (len : TblLen) : (State.resetOf len).cfStatWord = 0x000000FF := by
  simp [State.cfStatWord, State.resetOf, bypBits]

/-- Settles O44: the word's fields, and its value at reset, where it does not depend on the table length. -/
theorem cfStatPacksFlagsAndSlopes : Obligations.CfStatPacksFlagsAndSlopes :=
  ⟨fun s => ⟨_, exec_cfStat s, rfl, cfStatWord_lc_flags s, cfStatWord_hc_flags s, cfStatWord_lc_slope s,
    cfStatWord_zero_between s, cfStatWord_hc_slope s, cfStatWord_zero_above s⟩, cfStatWord_resetOf⟩

/-! ### The filter commands and the shadow bank (R142) -/

/-- BQ.PROC writes one channel's delay state and RES0 (R164). -/
theorem exec_bqProc {s : State} (ch : Channel) (hm : s.mode = .run) :
    exec (.bqProc ch) s = .next ((s.setDelays ch (s.chain ch s.arg0).2).setRes0 (s.chain ch s.arg0).1) := by
  change execBqProc ch s = _
  exact runCommand_ok (List.mem_singleton.2 hm) rfl

/-- Lane 1 of BQ.PROC2 runs on the state that lane 0 leaves, which for the right channel is the state before (R163, R165). -/
theorem exec_bqProc2 {s : State} (hm : s.mode = .run) :
    exec .bqProc2 s =
      .next ((((s.setDelays .left (s.chain .left s.arg0).2).setDelays .right (s.chain .right s.arg1).2).setRes0
        (s.chain .left s.arg0).1).setRes1 (s.chain .right s.arg1).1) := by
  change execBqProc2 s = _
  refine runCommand_ok (List.mem_singleton.2 hm) ?_
  have hlane : (s.setDelays .left (s.chain .left s.arg0).2).chain .right s.arg1 = s.chain .right s.arg1 :=
    State.chain_congr rfl rfl .right rfl _
  simp only [State.setDelays_arg1, hlane]

/-- The state with other shadow sets and slopes in place. -/
def State.withShadow (s : State) (sh : Vector CoefSet 9) (sl : PerChain (BitVec 2)) : State :=
  { s with sh := sh, shslope := sl }

/-- No sample reads the shadow bank (R142). -/
theorem State.withShadow_chain (s : State) (sh : Vector CoefSet 9) (sl : PerChain (BitVec 2)) (ch : Channel) (x : Word) :
    (s.withShadow sh sl).chain ch x = s.chain ch x :=
  State.chain_congr rfl rfl ch rfl x

theorem exec_bqProc_withShadow {s t : State} {ch : Channel} (hm : s.mode = .run) (h : exec (.bqProc ch) s = .next t)
    (sh : Vector CoefSet 9) (sl : PerChain (BitVec 2)) :
    exec (.bqProc ch) (s.withShadow sh sl) = .next (t.withShadow sh sl) := by
  rw [exec_bqProc ch hm] at h
  cases h
  rw [exec_bqProc (s := s.withShadow sh sl) ch hm, State.withShadow_chain]
  rfl

theorem exec_bqProc2_withShadow {s t : State} (hm : s.mode = .run) (h : exec .bqProc2 s = .next t)
    (sh : Vector CoefSet 9) (sl : PerChain (BitVec 2)) :
    exec .bqProc2 (s.withShadow sh sl) = .next (t.withShadow sh sl) := by
  rw [exec_bqProc2 hm] at h
  cases h
  rw [exec_bqProc2 (s := s.withShadow sh sl) hm, State.withShadow_chain, State.withShadow_chain]
  rfl

/-- Settles O45: both commands compute with the chain, which is the same with any shadow bank. -/
theorem shadowBankDoesNotReachProcessing : Obligations.ShadowBankDoesNotReachProcessing := fun _ sh sl ch hm =>
  ⟨⟨_, exec_bqProc ch hm, exec_bqProc_withShadow hm (exec_bqProc ch hm) sh sl⟩,
    ⟨_, exec_bqProc2 hm, exec_bqProc2_withShadow hm (exec_bqProc2 hm) sh sl⟩⟩

end Sys2Proof.Machine
end

section
/-! The filter commands (44_filter.md): the nine words of a chain and the delay words that each stage leaves (R160 to R162),
BQ.PROC of one channel beside the other's delay state (R163), BQ.PROC2 lane by lane (R165), the chain of reset coefficients
(R164, R220) and BQ.RESET (R166). -/

namespace Sys2Proof.Machine

/-! ### BQ.RESET (R166) -/

theorem exec_bqReset (s : State) : exec .bqReset s = .next s.clearDelays := by
  change execBqReset s = _
  exact runCommand_ok (mem_anyMode _) rfl

theorem State.clearDelays_get (s : State) (ch : Channel) : s.clearDelays.dly.get ch = Vector.replicate 9 Delay.zero := by
  cases ch <;> rfl

/-- Settles O51: the delay lines of a channel are nine cleared stages, and the command writes nothing else. -/
theorem bqResetClearsTheDelayLines : Obligations.BqResetClearsTheDelayLines := by
  refine fun s => ⟨_, exec_bqReset s, fun ch st j => ?_, rfl⟩
  rw [State.clearDelays_get, Fin.getElem_fin, Vector.getElem_replicate]
  cases j <;> rfl

/-! ### The two channels (R163) -/

theorem PerChannel.set_comm {α : Type} (p : PerChannel α) {a b : Channel} (h : a ≠ b) (u v : α) :
    (p.set a u).set b v = (p.set b v).set a u :=
  match a, b, h with
  | .left, .right, _ => rfl
  | .right, .left, _ => rfl

/-- BQ.PROC computes with the chain of any state with the same active sets, flags and delay state of its channel (R163). -/
theorem exec_bqProc_of_agree {s u : State} (ch : Channel) (hm : u.mode = .run) (hc : u.coef = s.coef) (hb : u.byp = s.byp)
    (hd : u.dly.get ch = s.dly.get ch) :
    exec (.bqProc ch) u = .next ((u.setDelays ch (s.chain ch u.arg0).2).setRes0 (s.chain ch u.arg0).1) := by
  rw [exec_bqProc ch hm, State.chain_congr hc hb ch hd]

/-- BQ.PROC of one channel with any delay state in the other: that delay state stays, and all else is as before (R163). -/
theorem exec_bqProc_setDelays {s : State} {ch ch' : Channel} (h : ch ≠ ch') (hm : s.mode = .run) (d : Vector Delay 9) :
    ∃ t, exec (.bqProc ch) s = .next t ∧ t.dly.get ch' = s.dly.get ch' ∧
      exec (.bqProc ch) (s.setDelays ch' d) = .next (t.setDelays ch' d) := by
  refine ⟨_, exec_bqProc ch hm, PerChannel.get_set_other _ _ h.symm, ?_⟩
  rw [exec_bqProc_of_agree (s := s) (u := s.setDelays ch' d) ch hm rfl rfl (PerChannel.get_set_other _ _ h)]
  simp only [State.setDelays, State.setRes0, PerChannel.set_comm _ h]

/-- Settles O49, once for each channel. -/
theorem channelsAreIndependent : Obligations.ChannelsAreIndependent := fun _ d hm =>
  ⟨exec_bqProc_setDelays (ch := .left) (ch' := .right) (by decide) hm d,
    exec_bqProc_setDelays (ch := .right) (ch' := .left) (by decide) hm d⟩

/-! ### BQ.PROC2 (R165) -/

/-- Settles O47: BQ.PROC 0 leaves all that the right chain reads, and each of the two writes its own delay state. -/
theorem procTwoIsProcTwice : Obligations.ProcTwoIsProcTwice := by
  refine fun s hm => ⟨_, _, exec_bqProc .left hm, exec_bqProc_of_agree (s := s) .right hm rfl rfl rfl, ?_⟩
  rw [exec_bqProc2 hm]
  simp only [State.setDelays, State.setRes0, State.setRes1]

/-- The chain is the same for both channels where their delay states are (R165). -/
theorem State.chain_left_eq_right {s : State} (h : s.dly.left = s.dly.right) (x : Word) :
    s.chain .left x = s.chain .right x := by
  rw [State.chain, State.chain, PerChannel.get_left, PerChannel.get_right, h]

/-- Settles O48: both lanes run one chain on one input and one delay state. -/
theorem equalChannelsStayEqual : Obligations.EqualChannelsStayEqual := by
  intro s hm harg hdly
  have hlanes : s.chain .left s.arg0 = s.chain .right s.arg1 := by rw [← harg, State.chain_left_eq_right hdly]
  exact ⟨_, exec_bqProc2 hm, congrArg Prod.fst hlanes, congrArg Prod.snd hlanes⟩

/-! ### The stages in order (R160 to R162) -/

theorem stages_take_succ (st : Fin 9) : stages.take (st.val + 1) = stages.take st.val ++ [st] := by revert st; decide

theorem not_mem_stages_take (st : Fin 9) : st ∉ stages.take st.val := by revert st; decide

theorem not_mem_stages_drop (st : Fin 9) : st ∉ stages.drop (st.val + 1) := by revert st; decide

/-- Stages leave the delay words of a stage that is none of them alone. -/
theorem foldl_stageStep_other (coef : Vector CoefSet 9) (act : Fin 9 → Bool) {l : List (Fin 9)} {st : Fin 9} (h : st ∉ l)
    (xd : Word × Vector Delay 9) : (l.foldl (stageStep coef act) xd).2[st] = xd.2[st] := by
  induction l generalizing xd with
  | nil => rfl
  | cons j l ih =>
    rw [List.foldl_cons, ih (List.not_mem_of_not_mem_cons h), stageStep_other coef act xd (List.ne_of_not_mem_cons h)]

/-- What an active stage answers: the difference equations on its word and its own delay words (R160). -/
theorem stageStep_own {coef : Vector CoefSet 9} {act : Fin 9 → Bool} {st : Fin 9} (h : act st = true)
    (xd : Word × Vector Delay 9) :
    ((stageStep coef act xd st).1, (stageStep coef act xd st).2[st]) = biquad coef[st] xd.2[st] xd.1 := by
  rw [stageStep_active h]
  simp

/-- The word and the delay lines of a channel after the first `n` stages of its chain. -/
def State.chainPrefix (s : State) (ch : Channel) (x : Word) (n : Nat) : Word × Vector Delay 9 :=
  (stages.take n).foldl (stageStep s.coef s.active) (x, s.dly.get ch)

section
variable (s : State) (ch : Channel) (x : Word) (st : Fin 9)

theorem State.chainPrefix_nine : s.chainPrefix ch x 9 = s.chain ch x := rfl

theorem State.chainPrefix_succ :
    s.chainPrefix ch x (st.val + 1) = stageStep s.coef s.active (s.chainPrefix ch x st.val) st := by
  rw [State.chainPrefix, stages_take_succ, List.foldl_append]
  rfl

/-- A stage finds its own delay words as the sample before left them. -/
theorem State.chainPrefix_delay : (s.chainPrefix ch x st.val).2[st] = (s.dly.get ch)[st] :=
  foldl_stageStep_other _ _ (not_mem_stages_take st) _

/-- The stages after a stage keep the delay words it leaves. -/
theorem State.chain_delay : (s.chain ch x).2[st] = (s.chainPrefix ch x (st.val + 1)).2[st] := by
  rw [State.chain, chainOn, ← List.take_append_drop (st.val + 1) stages, List.foldl_append]
  exact foldl_stageStep_other _ _ (not_mem_stages_drop st) _

end

/-- A stage is bypassed by the flag of its slot; the peak stage, number 4, has none (R72, R161, R162). -/
theorem State.active_eq_false_iff (s : State) (st : Fin 9) : s.active st = false ↔
    (st.val < 4 ∧ s.byp.lc[st.val]? = some true) ∨ (5 ≤ st.val ∧ s.byp.hc[st.val - 5]? = some true) := by
  unfold State.active
  split
  · next hlc => simp [hlc, show ¬ 5 ≤ st.val by omega]
  · next hlc =>
    split
    · next hhc => simp [hlc, hhc, show st.val - 5 < 4 by omega]
    · next hhc => simp [hlc, hhc]

/-- A bypassed stage passes its word on and keeps its delay words (R161). -/
theorem State.chain_bypassed {s : State} {st : Fin 9} (h : s.active st = false) (ch : Channel) (x : Word) :
    (s.chainPrefix ch x (st.val + 1)).1 = (s.chainPrefix ch x st.val).1 ∧ (s.chain ch x).2[st] = (s.dly.get ch)[st] := by
  rw [State.chain_delay, State.chainPrefix_succ, stageStep_bypassed h]
  exact ⟨rfl, s.chainPrefix_delay ch x st⟩

/-- An active stage runs the difference equations on its word and its own delay words (R160). -/
theorem State.chain_active {s : State} {st : Fin 9} (h : s.active st = true) (ch : Channel) (x : Word) :
    ((s.chainPrefix ch x (st.val + 1)).1, (s.chain ch x).2[st]) =
      biquad s.coef[st] (s.dly.get ch)[st] (s.chainPrefix ch x st.val).1 := by
  rw [State.chain_delay, State.chainPrefix_succ, stageStep_own h, State.chainPrefix_delay]

/-- Settles O46: the nine words are those of the chain's prefixes, and each stage is bypassed or active. -/
theorem procRunsTheStagesInOrder : Obligations.ProcRunsTheStagesInOrder := by
  refine fun s ch hm => ⟨_, fun n => (s.chainPrefix ch s.arg0 n).1, exec_bqProc ch hm, rfl,
    (congrArg Prod.fst (s.chainPrefix_nine ch s.arg0)).symm, fun st => ?_,
    fun ch' hch => PerChannel.get_set_other _ _ hch, rfl⟩
  rw [State.setRes0_dly, State.setDelays_dly, PerChannel.get_set_same]
  split
  · next hbyp => exact State.chain_bypassed ((s.active_eq_false_iff st).2 hbyp) ch s.arg0
  · next hbyp =>
    have hact : s.active st = true := Bool.eq_true_of_not_eq_false (mt (s.active_eq_false_iff st).1 hbyp)
    obtain ⟨hword, hdelay⟩ := Prod.ext_iff.1 (State.chain_active hact ch s.arg0)
    dsimp only at hword hdelay ⊢
    rw [hword, hdelay]
    exact ⟨rfl, rfl, rfl⟩

/-! ### The chain of reset coefficients (R164, R220) -/

/-- The identity set on cleared delay words returns a finite word other than -0.0 and leaves them cleared:
every product but the first is a zero, and it is taken from itself. -/
theorem biquad_identity {x : Word} (h : entryOk x) : biquad CoefSet.identity Delay.zero x = (x, Delay.zero) := by
  have hzero : isZero 0 := .inl rfl
  have hprod : isFinite (fmul 0 x) = true := (isZero_fields (isZero_fmul hzero h.1)).1
  have hout : fadd (fmul 0x3F800000 x) 0 = x := by
    rw [show fmul 0x3F800000 x = x from one_fmul h.1, fadd_isZero h hzero]
  have hsum : fadd 0 0 = 0 := by decide
  simp only [biquad, CoefSet.identity, Delay.zero, hout, fsub_self hprod, hsum]

/-- An identity stage with cleared delay words is the identity, active or not. -/
theorem stageStep_identity (act : Fin 9 → Bool) {x : Word} (h : entryOk x) (st : Fin 9) :
    stageStep (Vector.replicate 9 CoefSet.identity) act (x, Vector.replicate 9 Delay.zero) st =
      (x, Vector.replicate 9 Delay.zero) := by
  cases hact : act st with
  | false => exact stageStep_bypassed hact
  | true =>
    rw [stageStep_active hact]
    simp [biquad_identity h]

theorem chainOn_identity (act : Fin 9 → Bool) {x : Word} (h : entryOk x) :
    chainOn (Vector.replicate 9 CoefSet.identity) act (Vector.replicate 9 Delay.zero) x =
      (x, Vector.replicate 9 Delay.zero) :=
  List.foldl_fixed' (stageStep_identity act h) stages

/-- The peak stage, which alone is active after reset, turns -0.0 into +0.0. -/
theorem reset_chain_negZero (ch : Channel) : (State.reset.chain ch 0x80000000).1 = 0 := by
  cases ch <;> decide

/-- Settles O50: the chain is the one right after reset, and BQ.PROC writes back the delay lines it read. -/
theorem resetChainIsTheIdentity : Obligations.ResetChainIsTheIdentity := by
  intro s ch hm hf hcoef hbyp hdly
  refine ⟨fun hne => ?_, fun hneg => ?_⟩
  · have hget : s.dly.get ch = Vector.replicate 9 Delay.zero := by rw [hdly]; cases ch <;> rfl
    have hchain : s.chain ch s.arg0 = (s.arg0, s.dly.get ch) := by
      rw [State.chain, hcoef, hget]
      exact chainOn_identity s.active ⟨hf, hne⟩
    rw [exec_bqProc ch hm, hchain]
    cases ch <;> rfl
  · refine ⟨_, exec_bqProc_of_agree (s := State.reset) ch hm hcoef hbyp (congrArg (·.get ch) hdly), ?_⟩
    rw [State.setRes0_res0, hneg, reset_chain_negZero]

end Sys2Proof.Machine
end

section
/-! Faults (60_exceptions.md): the record of a fault (R200, R203), the mode table (R201), that every event is served to its
end (R57, R206), and what a step keeps of the record (R203). -/

namespace Sys2Proof.Machine

/-! ### Recording a fault (R200, R203) -/

/-- R200's table lists each fault with its code. -/
theorem FaultCode.code_of_mem {c : FaultCode} {code : Byte} (h : (c, code) ∈ [(FaultCode.illegal, 1#8), (.mode, 2#8),
    (.range, 3#8), (.operand, 4#8), (.table, 5#8), (.unwritten, 6#8), (.bus, 7#8)]) : c.code = code := by
  change (c, code) ∈ [FaultCode.illegal, .mode, .range, .operand, .table, .unwritten, .bus].map fun d => (d, d.code) at h
  obtain ⟨d, -, hd⟩ := List.mem_map.1 h
  cases hd
  rfl

/-- Settles O14: the first fault fills the record with its code of R200, and a later one only sets FAULT again. -/
theorem recordingAFault : Obligations.RecordingAFault := by
  intro s c code info hmem
  obtain rfl := FaultCode.code_of_mem hmem
  exact ⟨fun herr => if_pos herr, fun herr => if_neg herr⟩

/-! ### The mode table (R201) -/

theorem FaultCode.code_eq_two_iff {c : FaultCode} : c.code = 2 ↔ c = .mode := by cases c <;> decide

/-- A command's pseudocode reports no E_MODE, whether it raises its fault or, as PREPARE does, records it itself. -/
def NoModeFault (s : State) : Except FaultCode State → Prop
  | .ok t => s.err = 0 → t.err ≠ 2
  | .error c => c ≠ .mode

theorem NoModeFault.ok {s t : State} (h : t.err = s.err) : NoModeFault s (.ok t) := by
  intro herr
  rw [h, herr]
  decide

/-- A check reports no E_MODE where neither of its two branches does. -/
theorem NoModeFault.check {s : State} {p : Prop} [Decidable p] {a b : Except FaultCode State} (ha : NoModeFault s a)
    (hb : NoModeFault s b) : NoModeFault s (if p then a else b) := by
  split
  · exact ha
  · exact hb

theorem noModeFault_prepareRefused (s : State) : NoModeFault s (.ok s.prepareRefused) := by
  intro herr
  rw [State.prepareRefused, State.recordFault_err_first (s := s.setMode .unprep) herr, Ne, FaultCode.code_eq_two_iff]
  decide

/-- What a command answers is its pseudocode run in the modes that R201's table gives it. -/
def RunsByTable (i : Instr) (s : State) (r : Result) : Prop :=
  ∃ modes body, r = runCommand modes (encode i) body s ∧ (s.mode ∈ modes ↔ allowedIn i s.mode = true) ∧
    NoModeFault s (body s)

section
variable {i : Instr} {s : State} {body : State → Except FaultCode State}

theorem RunsByTable.inAnyMode (ha : allowedIn i s.mode = true) (hb : NoModeFault s (body s)) :
    RunsByTable i s (runCommand anyMode (encode i) body s) :=
  ⟨_, _, rfl, iff_of_true (mem_anyMode _) ha, hb⟩

theorem RunsByTable.inMode {m : Mode} (ha : allowedIn i s.mode = (s.mode == m)) (hb : NoModeFault s (body s)) :
    RunsByTable i s (runCommand [m] (encode i) body s) :=
  ⟨_, _, rfl, by rw [ha, List.mem_singleton, beq_iff_eq], hb⟩

theorem RunsByTable.inSetupAndRun (ha : allowedIn i s.mode = (s.mode != .unprep)) (hb : NoModeFault s (body s)) :
    RunsByTable i s (runCommand [.setup, .run] (encode i) body s) :=
  ⟨_, _, rfl, by rw [ha, mem_setup_run, bne_iff_ne], hb⟩

end

theorem exec_runsByTable (i : Instr) (s : State) : RunsByTable i s (exec i s) := by
  unfold exec
  cases i with
  | nop => exact .inAnyMode rfl (.ok rfl)
  | prepare => exact .inAnyMode rfl (.check (.ok rfl) (noModeFault_prepareRefused s))
  | start => exact .inMode rfl (.ok rfl)
  | oscSetfreq o => exact .inSetupAndRun rfl (.check (.check (.ok rfl) nofun) nofun)
  | oscSample o => exact .inMode rfl (.check (.ok rfl) nofun)
  | oscStop o => exact .inSetupAndRun rfl (.ok rfl)
  | oscStatus o => exact .inAnyMode rfl (.ok rfl)
  | oscRead o => exact .inAnyMode rfl (.ok rfl)
  | wtWrite j => exact .inMode rfl (.check nofun (.check (.ok rfl) nofun))
  | wtRead j =>
    refine .inAnyMode rfl (.check nofun ?_)
    split
    · exact .ok rfl
    · exact nofun
  | cfWrite a k =>
    refine .inAnyMode rfl ?_
    split
    · exact .check (.ok rfl) nofun
    · exact nofun
  | cfRead a k =>
    refine .inAnyMode rfl ?_
    split
    · exact .ok rfl
    · exact nofun
  | cfSlope c n => exact .inAnyMode rfl (.ok rfl)
  | cfCommit => exact .inAnyMode rfl (.ok s.committed_err)
  | cfStat => exact .inAnyMode rfl (.ok rfl)
  | bqProc ch => exact .inMode rfl (.ok rfl)
  | bqProc2 => exact .inMode rfl (.ok rfl)
  | bqReset => exact .inAnyMode rfl (.ok rfl)
  | bqRdstate ch a j =>
    refine .inAnyMode rfl ?_
    split
    · exact .ok rfl
    · exact nofun
  | bqRdcoef a k =>
    refine .inAnyMode rfl ?_
    split
    · exact .ok rfl
    · exact nofun

/-- Outside its modes a command only records E_MODE. -/
theorem exec_of_not_allowed {i : Instr} {s : State} (h : allowedIn i s.mode = false) :
    exec i s = .next (s.recordFault .mode (encode i)) := by
  obtain ⟨modes, body, hexec, hmodes, -⟩ := exec_runsByTable i s
  rw [hexec]
  exact runCommand_mode fun hm => Bool.eq_false_iff.1 h (hmodes.1 hm)

/-- Within its modes a command passes the mode check, and its pseudocode reports other faults only. -/
theorem exec_err_ne_mode {i : Instr} {s t : State} (ha : allowedIn i s.mode = true) (herr : s.err = 0)
    (h : exec i s = .next t) : t.err ≠ 2 := by
  obtain ⟨modes, body, hexec, hmodes, hbody⟩ := exec_runsByTable i s
  obtain ⟨-, hok⟩ | ⟨-, c, hc, rfl⟩ | ⟨hm, -⟩ := runCommand_cases (hexec ▸ h)
  · rw [hok] at hbody
    exact hbody herr
  · rw [hc] at hbody
    rw [State.recordFault_err_first herr]
    exact mt FaultCode.code_eq_two_iff.1 hbody
  · exact absurd (hmodes.2 ha) hm

/-- Settles O17: the modes that a command's pseudocode runs in are those of the table. -/
theorem modeTableDecidesEMode : Obligations.ModeTableDecidesEMode :=
  ⟨fun _ _ => exec_of_not_allowed, fun _ _ _ => exec_err_ne_mode⟩

/-! ### Serving an event (R57, R206) -/

theorem exec_completes (i : Instr) (s : State) : ∃ t, exec i s = .next t := by
  obtain ⟨modes, body, hexec, -⟩ := exec_runsByTable i s
  rw [hexec]
  exact runCommand_completes modes (encode i) body s

/-- What serving an event can do, whatever the word that a Read returns and the fault that a refused word or Write
records: `serve_completes` ties it to `serve`. -/
inductive Served (s : State) : HostEvent → State → Prop where
  | reset : Served s .reset (assertReset s)
  | read {off : Byte} (v : Word) : Served s (.read off) (s.reply v)
  | readRefused {off : Byte} (c : FaultCode) (info : Word) : Served s (.read off) ((s.recordFault c info).reply 0)
  | arg0 {off : Byte} {w : Word} {be : BitVec 4} : Served s (.write off w be) { s with arg0 := w }
  | arg1 {off : Byte} {w : Word} {be : BitVec 4} : Served s (.write off w be) { s with arg1 := w }
  | command {off : Byte} {w : Word} {be : BitVec 4} {i : Instr} {t : State} (h : exec i s = .next t) :
      Served s (.write off w be) t
  | writeRefused {off : Byte} {w : Word} {be : BitVec 4} (c : FaultCode) (info : Word) :
      Served s (.write off w be) (s.recordFault c info)

theorem issue_completes {off : Byte} {be : BitVec 4} (w : Word) (s : State) :
    ∃ t, issue w s = .next t ∧ Served s (.write off w be) t := by
  obtain ⟨i, -, hi⟩ | ⟨e, -, hi⟩ := issue_cases w s
  · obtain ⟨t, ht⟩ := exec_completes i s
    exact ⟨t, hi.trans ht, .command ht⟩
  · exact ⟨_, hi, .writeRefused .illegal w⟩

/-- Every event is served to its end, with no stop and no refusal (R57, R206). -/
theorem serve_completes (e : HostEvent) (s : State) : ∃ t, serve e s = .next t ∧ Served s e t := by
  cases e with
  | reset => exact ⟨_, rfl, .reset⟩
  | read off =>
    refine ⟨_, rfl, ?_⟩
    obtain ⟨r, -, hr⟩ | ⟨-, hr⟩ := busRead_cases off s
    · rw [hr]; exact .read _
    · rw [hr]; exact .readRefused _ _
  | write off w be =>
    change ∃ t, busWrite off w be s = .next t ∧ _
    obtain ⟨-, hw⟩ | ⟨-, hw⟩ | ⟨-, -, hw⟩ | hw := busWrite_cases off w be s
    · exact ⟨_, hw, .arg0⟩
    · exact ⟨_, hw, .arg1⟩
    · rw [hw]; exact issue_completes w s
    · exact ⟨_, hw, .writeRefused _ _⟩

theorem serve_cases {e : HostEvent} {s t : State} (h : serve e s = .next t) : Served s e t := by
  obtain ⟨u, hu, hserved⟩ := serve_completes e s
  cases h.symm.trans hu
  exact hserved

/-! ### Every step completes -/

theorem Effect.pending_eq {s t : State} {i : Instr} (he : Effect s i t) : t.pending = s.pending := by
  cases he with
  | cfCommit => exact s.committed_pending
  | _ => rfl

/-- No command takes an event from the host or gives it one. -/
theorem exec_pending {i : Instr} {s t : State} (h : exec i s = .next t) : t.pending = s.pending :=
  exec_keeps State.pending h State.recordFault_pending State.setMode_pending Effect.pending_eq

theorem Served.pending_eq {e : HostEvent} {s t : State} (h : Served s e t) : t.pending = s.pending := by
  cases h with
  | readRefused c info => exact s.recordFault_pending c info
  | command hexec => exact exec_pending hexec
  | writeRefused c info => exact s.recordFault_pending c info
  | _ => rfl

theorem step_of_no_pending {s : State} (h : s.pending = []) : step s = .next s := by
  simp only [step, stepBus, h]

/-- A step takes the event it serves off the list. -/
theorem step_completes (s : State) : ∃ t, step s = .next t ∧ t.pending = s.pending.tail := by
  cases hp : s.pending with
  | nil => exact ⟨s, step_of_no_pending hp, hp⟩
  | cons e rest =>
    obtain ⟨t, ht, hserved⟩ := serve_completes e { s with pending := rest }
    exact ⟨t, (step_of_pending hp).trans ht, hserved.pending_eq⟩

/-- Settles O7: the next event is served to its end, and no step changes L. -/
theorem everyStepCompletes : Obligations.EveryStepCompletes := by
  refine ⟨fun s => ?_, fun _ => step_of_no_pending⟩
  obtain ⟨t, ht, hpending⟩ := step_completes s
  exact ⟨t, ht, hpending, step_tblLen ht⟩

/-! ### The record is sticky (R203) -/

/-- FAULT and a recorded ERR and ERRCMD of one state stand in the other. -/
def KeepsRecord (s t : State) : Prop :=
  (s.fault = true → t.fault = true) ∧ (s.err ≠ 0 → t.err = s.err ∧ t.errcmd = s.errcmd)

theorem KeepsRecord.of_eq {s t : State} (hf : t.fault = s.fault) (he : t.err = s.err) (hc : t.errcmd = s.errcmd) :
    KeepsRecord s t :=
  ⟨fun h => hf.trans h, fun _ => ⟨he, hc⟩⟩

theorem State.recordFault_keepsRecord (s : State) (c : FaultCode) (w : Word) : KeepsRecord s (s.recordFault c w) := by
  refine ⟨fun _ => s.recordFault_fault c w, fun herr => ?_⟩
  rw [State.recordFault_err, State.recordFault_errcmd, if_neg herr, if_neg herr]
  exact ⟨rfl, rfl⟩

theorem Effect.keepsRecord {s t : State} {i : Instr} (he : Effect s i t) : KeepsRecord s t := by
  cases he with
  | cfCommit => exact .of_eq s.committed_fault s.committed_err s.committed_errcmd
  | _ => exact .of_eq rfl rfl rfl

theorem exec_keepsRecord {i : Instr} {s t : State} (h : exec i s = .next t) : KeepsRecord s t := by
  obtain he | ⟨c, -, rfl⟩ | ⟨-, rfl⟩ := exec_cases h
  · exact he.keepsRecord
  · exact s.recordFault_keepsRecord c _
  · exact (s.setMode .unprep).recordFault_keepsRecord _ _

theorem Served.keepsRecord {e : HostEvent} {s t : State} (h : Served s e t) (hreset : e ≠ .reset) :
    KeepsRecord s t := by
  cases h with
  | reset => exact absurd rfl hreset
  | readRefused c info => exact s.recordFault_keepsRecord c info
  | command hexec => exact exec_keepsRecord hexec
  | writeRefused c info => exact s.recordFault_keepsRecord c info
  | _ => exact .of_eq rfl rfl rfl

/-- Settles O15: of the events, reset alone clears the record. -/
theorem faultRecordIsSticky : Obligations.FaultRecordIsSticky := by
  intro s t h hreset
  obtain ⟨-, rfl⟩ | ⟨e, rest, hp, he⟩ := step_cases h
  · exact KeepsRecord.of_eq rfl rfl rfl
  · rw [hp, List.head?_cons] at hreset
    exact (serve_cases he).keepsRecord (mt (congrArg some) hreset)

end Sys2Proof.Machine
end

section
/-! Reset (70_reset_and_hazards.md): what serving the reset input leaves, row by row of R220's table. -/

namespace Sys2Proof.Machine

/-! ### The reset state (R220) -/

/-- A block has at least one table entry (R5), and reset writes none. -/
theorem tblFull_resetOf (len : TblLen) : (State.resetOf len).tblFull = false :=
  State.tblFull_eq_false (i := 0) len.pos (Memory.read_nil 0)

theorem statusWord_resetOf (len : TblLen) : (State.resetOf len).statusWord = 0 := by
  rw [State.statusWord, tblFull_resetOf]
  change 0#28 ++ BitVec.ofBool false ++ BitVec.ofBool false ++ Mode.unprep.code = 0
  decide

theorem phase_resetOf (len : TblLen) (o : Fin 128) : (State.resetOf len).phase[o] = 0 := Vector.getElem_replicate o.isLt

theorem inc_resetOf (len : TblLen) (o : Fin 128) : (State.resetOf len).inc[o] = 0 := Vector.getElem_replicate o.isLt

theorem sh_resetOf (len : TblLen) (st : Fin 9) : (State.resetOf len).sh[st] = CoefSet.identity :=
  Vector.getElem_replicate st.isLt

theorem coef_resetOf (len : TblLen) (st : Fin 9) : (State.resetOf len).coef[st] = CoefSet.identity :=
  Vector.getElem_replicate st.isLt

theorem shslope_resetOf (len : TblLen) (c : Chain) : (State.resetOf len).shslope.get c = 0 := by
  cases c <;> rfl

theorem byp_resetOf (len : TblLen) (c : Chain) (i : Fin 4) : ((State.resetOf len).byp.get c)[i] = true := by
  cases c <;> exact Vector.getElem_replicate i.isLt

theorem dly_resetOf (len : TblLen) (ch : Channel) (st : Fin 9) :
    ((State.resetOf len).dly.get ch)[st] = Delay.zero := by
  cases ch <;> exact Vector.getElem_replicate st.isLt

@[simp] theorem Delay.zero_get (j : StateWord) : Delay.zero.get j = 0 := by
  cases j <;> rfl

/-! ### Asserting reset (R220) -/

theorem step_reset {s : State} {rest : List HostEvent} (h : s.pending = .reset :: rest) :
    step s = .next { State.resetOf s.tblLen with pending := rest, replies := s.replies } :=
  step_of_pending h

/-- Settles O55: the state left is the reset state of the block's own table length but for the host's two lists, which no
row of R220's table reads. -/
theorem resetLeavesTheResetState : Obligations.ResetLeavesTheResetState := by
  intro s rest h
  refine ⟨_, step_reset h, rfl, rfl, rfl, rfl, rfl, rfl, rfl, rfl, rfl, rfl, ?oscillators, Memory.read_nil, ?banks,
    shslope_resetOf s.tblLen, byp_resetOf s.tblLen, ?delays, statusWord_resetOf s.tblLen, cfStatWord_resetOf s.tblLen, rfl⟩
  case oscillators => exact fun o => ⟨phase_resetOf s.tblLen o, inc_resetOf s.tblLen o⟩
  case banks => exact fun st => ⟨sh_resetOf s.tblLen st, coef_resetOf s.tblLen st⟩
  case delays =>
    intro ch st j
    change ((State.resetOf s.tblLen).dly.get ch)[st].get j = 0
    rw [dly_resetOf, Delay.zero_get]

end Sys2Proof.Machine
end
